-- ==== Sys2Proof/Word.lean ====
section
/-! DEFINITION. The plain data types every file of the model uses: bytes, and sparse banks of like things. -/

namespace Sys2Proof

/-- One byte. Multi-byte fields are little-endian throughout (R8). -/
abbrev Byte := BitVec 8

/-- A run of bytes, lowest address first. -/
abbrev Bytes := List (BitVec 8)

/-- A sparse bank of like things by number, listed with rising numbers. What an unlisted number reads as is
said where the bank is read. -/
structure Bank (α : Type) where
  cells : List (Nat × α) := []
deriving DecidableEq, Repr

end Sys2Proof
end

