-- ==== Sys2Proof/Syntax.lean ====
section
/-! DEFINITION. The commands of the block: one constructor for each row of the table of operations and events. -/

namespace Sys2Proof

/-- The way a Kymal command came: a queue pair of a function, its urgent mailbox, or the sideband. -/
inductive Path where
  | queue (f q : Nat)
  | urgent (f : Nat)
  | sideband
deriving DecidableEq, Repr

/-- What units outside the warden answer while it carries out a command (DESIGN CHOICE, log entry 7): the sealed island's
verification, figures measured by a test or training, or a failure inside the device. -/
structure Answers where
  /-- Digest, signature or token verifies. -/
  verified : Bool := true
  /-- The device could not complete the command: reason of EV_WARDEN_INTERNAL, 0 for none (R89). -/
  internal : Nat := 0
  /-- Figures the command reports or uses, as its meaning says. -/
  figures : List Nat := []
deriving DecidableEq, Repr

/-- A command entry (Table 3-1) but for its opcode, as the warden holds it once read. -/
structure KCmd where
  path : Path
  /-- Bytes 2-3. -/
  flags : BitVec 16 := 0
  seq : BitVec 32
  guard : BitVec 64 := 0
  /-- Bytes 16-127. -/
  payload : Bytes
  /-- The indirect buffer as read, or the inline data of the sideband message. -/
  ext : Bytes := []
  answers : Answers := {}
deriving DecidableEq, Repr

/-- The GDDR7 pair of a board channel as its devices identify themselves; the defaults are what Table 7-2 supports (R285). -/
structure BoardPair where
  /-- Density of each device in Gbit. -/
  density : Nat := 32
  /-- The devices stand as a clamshell pair. -/
  clamshell : Bool := true
  /-- Data width of each device. -/
  width : Nat := 16
  /-- The device that does not match: 1 first of the pair, 2 second, 3 both (Table 5-12). -/
  device : Nat := 3
deriving DecidableEq, Repr

/-- What boot finds at the steps of Table 6-1 (the parts' answers). A healthy part answers the defaults. -/
structure BootReport where
  /-- Step 7: one of the up to three start-up health test runs passes (R254). -/
  entropyOk : Bool := true
  /-- Step 7 of a cold boot: failing tests of the sealed-island self-test. -/
  selfTestFails : Nat := 0
  /-- Step 12 of a cold boot: stack-face wires that fail the bond test: near channel, wire, group (Table 7-6). -/
  bondWires : List (Nat × Nat × Nat) := []
  /-- Step 12: near channels that fail calibration. -/
  uncalibrated : List Nat := []
  /-- Step 12: pending repair records that find no spare row, by position in the record list (R257). -/
  unrepairable : List Nat := []
  /-- Step 13: the GDDR7 pairs that are not as Table 7-2 has them, by board channel. -/
  boardPairs : List (Nat × BoardPair) := []
  /-- Step 13: attempts to train a board channel that fail: channel, data rate, stage, device (Table 5-12). -/
  boardFails : List (Nat × Nat × Nat × Nat) := []
  /-- Step 14 of a cold boot: compute-die wires that fail the bond test: cluster, path, wire (Table 16-9). -/
  dieWires : List (Nat × Nat × Nat) := []
  /-- Step 14: cluster ports that fail training: cluster, path, wire. -/
  untrainedPorts : List (Nat × Nat × Nat) := []
  /-- Step 15: quadrants whose reference is absent (kHz 0) or out of tolerance: quadrant, measured kHz (R32, R1001). -/
  badRefclk : List (Nat × Nat) := []
deriving DecidableEq, Repr

/-- How a host read of a command ring, or a write of a reply ring, failed (R121). -/
structure QueueFault where
  path : Path
  /-- A reply ring write, not a read. -/
  write : Bool
  /-- Poisoned data, not an error completion. -/
  poison : Bool
  addr : Nat
  /-- The failing access was the indirect buffer of this command, already taken: its opcode and entry (R1028). -/
  taken : Option (Nat × KCmd) := none
  /-- Positions whose next command is fenced, where one was taken (R78). -/
  fenced : List Nat := []
deriving DecidableEq, Repr

/-- A host write that may let pending MSI-X messages go (R853, R854). -/
inductive MsixWrite where
  /-- Clears the Mask bit of a vector. -/
  | unmask (v : Nat)
  /-- Writes Message Control: MSI-X Enable and Function Mask. -/
  | control (enable functionMask : Bool)
deriving DecidableEq, Repr

/-- Who looks up the Basin (Table 8-1). -/
inductive Requester where
  | aperture | gather
  /-- With the descriptor's allocation hint. -/
  | pump (hint : Bool)
  | infuser | sequencer | bar2 | cohort
deriving DecidableEq, Repr

/-- A word of a Basin line or of the scratchpad found in error by the SECDED code as it is read (R353-R357). -/
structure WordFault where
  /-- Word of the line, 0-15, or of local scratch, 0-8191. -/
  word : Nat
  /-- Two bits, not one. -/
  double : Bool
  /-- The single bit is a check bit. -/
  check : Bool
  syndrome : Nat
deriving DecidableEq, Repr

/-- An access at a line's home slice: a read of `len` bytes, or a write. -/
structure BasinRequest where
  who : Requester
  dpa : Nat
  len : Nat
  write : Option Bytes := none
  faults : List WordFault := []
deriving DecidableEq, Repr

/-- Pages an ATS completion grants: first page, count, translated address, rights (R444, R431). -/
structure AtsGrant where
  page : Nat
  count : Nat
  hpa : Nat
  r : Bool
  w : Bool
deriving DecidableEq, Repr

/-- The answer to an ATS Translation Request: an error, or what it grants. -/
structure AtsReply where
  error : Bool := false
  grants : List AtsGrant := []
deriving DecidableEq, Repr

/-- Response code of a PRG Response. -/
inductive PrgCode where
  | success | invalidRequest | responseFailure
deriving DecidableEq, Repr

/-- The non-posted request whose completion timer expired: an ATS request by AST and page, or a host read of a pump by
engine, channel, descriptor index and first tile byte. -/
inductive Timeout where
  | ats (ast page : Nat)
  | read (e c index tile : Nat)
deriving DecidableEq, Repr

/-- The reducer operation that reaches its reducer (Table 13-2): the aperture request of a cluster by tag, the operation
of a sequencer by number, or the request of a link port by tag and source member. -/
inductive RedSource where
  | aperture (c tag : Nat)
  | seq (q op : Nat)
  | window (port tag src : Nat)
deriving DecidableEq, Repr

/-- What arrives on a cluster port's stream path: a group, with the wire that a walking-ones check would name if it ends
the port (0x1FF none), or the compute die's declaration that the port is lost: path, wire, seq (R716). -/
inductive D2dArrival where
  | group (data side : Bytes) (crc wire : Nat)
  | lost (path wire seq : Nat)
deriving DecidableEq, Repr

/-- A lane of a link port in one direction: its last 58 scrambled bits (R754), the level and length of the run on the line
(R756, R757), its stuff debt (R758). -/
structure LinkLane where
  reg : Nat := 0
  level : Nat := 0
  run : Nat := 0
  debt : Nat := 0
deriving DecidableEq, Repr

/-- What a partner sends in IDENTIFY (R775): the public key of its device certificate, its ephemeral public key, both
uncompressed, and the signature over the latter. -/
structure PartnerIdentity where
  key : Bytes
  ephemeral : Bytes
  signature : Bytes
deriving DecidableEq, Repr

/-- A training frame received on a lane (Table 17-6), and how far the port's own receiver has come. -/
structure TrainFrame where
  lane : Nat
  /-- Bytes 16-25 of the frame. -/
  bytes : Bytes
  /-- The lane's own receiver is adapted. -/
  done : Bool := false
  /-- What it asks of the partner's transmitter, what its own transmitter answers, its preset (bytes 18-20). -/
  request : Nat := 0
  status : Nat := 0
  preset : Nat := 0
  /-- ALIGN: block lock on all lanes and superframe found, with this deskew in symbols. -/
  aligned : Option Nat := none
  /-- What the four receive lanes hold of the line then. -/
  lanes : List LinkLane := []
  /-- The port gives its training up here. -/
  fails : Bool := false
deriving DecidableEq, Repr

/-- What a MARGIN scan measured: voltage step in 0.1 mV, zero-error width and height of each eye, mismatches by cell
(Table 17-7). -/
structure MarginScan where
  vstep : Nat
  widths : Bytes
  heights : Bytes
  cells : List Nat
deriving DecidableEq, Repr

/-- An option of Table 19-1: those the device supports, then those it does not. -/
inductive PcieOption where
  | flitMode | rate64 | tags10 | tags14 | extendedTag | aer | flr | serialNumber | laneMargining | dataLinkFeature
  | rrs | d0 | d3hot | noSoftReset | ari | pageAlignedRequest | globalInvalidate | selectiveIde | pcrc
  | doeDiscovery | cmaSpdm | securedCmaSpdm
  | aspmL0s | aspmL1 | ltr | resizableBar | enhancedAllocation | atomicOps | tdisp | cxl
  | immediateReadiness | readinessTime | d1 | d2 | pme | vfResizableBar | vfMigration | atsMemoryAttributes
  | executePermission | privilegedMode | linkIde | ideAggregation | otherDoeProtocol
deriving DecidableEq, Repr

/-- A configuration register field whose value the manual gives (R1-R3, Tables 19-1 and 19-3). -/
inductive ConfigField where
  | vendor | device | revision
  | totalVfs | firstVfOffset | vfStride | vfDevice | numVfs | vfEnable
  | atsQueueDepth | atsTranslationUnit | atsEnable
  | priCapacity | prgPasidRequired | priEnable
  | pasidWidth | immediateReadiness
  /-- Link Status: Current Link Speed, 1 to 6, and Negotiated Link Width (R841). -/
  | linkSpeed | linkWidth
  /-- 1 where Table 19-1 lists the option as supported. -/
  | option (x : PcieOption)
  /-- Selective IDE Streams, and the largest DOE object in dwords (R860, R862). -/
  | ideStreams | doeMaxObject
deriving DecidableEq, Repr

/-- A configuration request (R244): a read of a register by its offset or of a field by its name, or a write of a
control that has no row of its own. -/
inductive ConfigAccess where
  | read (offset : Nat)
  | field (x : ConfigField)
  /-- Sets ATS Enable. -/
  | atsEnable
  /-- Sets PRI Enable, with the Outstanding Page Request Allocation. -/
  | priEnable (allocation : Nat)
  /-- The platform trains the link again and offers at most this generation and this many lanes: the table has no row of its
  own for it (DESIGN CHOICE, log entry 78). -/
  | retrain (gen lanes : Nat)
  /-- Enables a Selective IDE Stream for a function's association, or disables it. -/
  | ideStream (stream : Nat) (on : Bool)
deriving DecidableEq, Repr

/-- A write of BAR2.MAPn: one half by four bytes, or the whole register. -/
inductive MapWrite where
  | low (v : BitVec 32)
  | high (v : BitVec 32)
  | full (v : BitVec 64)
deriving DecidableEq, Repr

/-- A BAR2 request within one 4 KiB page: a read of `len` bytes, or a write. -/
structure Bar2Request where
  /-- Offset in BAR2. -/
  offset : Nat
  len : Nat
  write : Option Bytes := none
  /-- Words the Basin finds in error, counted from the first line touched: 16 to a line. -/
  faults : List WordFault := []
deriving DecidableEq, Repr

/-- An SPDM request on the DOE mailbox (Table 21-5), in the version it carries. -/
inductive SpdmRequest where
  | getVersion | getCapabilities | negotiateAlgorithms
  | getDigests | getCertificate (slot : Nat) | challenge (slot : Nat)
  /-- Index 0: their number; 255: all. -/
  | getMeasurements (index : Nat) (signed : Bool)
  | keyExchange (slot : Nat)
  /-- Its verify data match. -/
  | finish (matches_ : Bool)
  | heartbeat | keyUpdate | endSession | chunkSend | chunkGet
  /-- IDE_KM messages but KEY_PROG: the stream's keys put to use, or out of use; what the port supports. -/
  | ideKeySetGo (stream : Nat) | ideKeySetStop (stream : Nat) | ideQuery
  /-- Any request Table 21-5 does not list as supported. -/
  | other (code : Nat)
deriving DecidableEq, Repr

/-- An IDE_KM KEY_PROG message: stream, direction, substream, key set, and the key's number. -/
structure IdeKeyProg where
  stream : Nat
  transmit : Bool
  substream : Nat
  keySet : Nat
  key : Nat
deriving DecidableEq, Repr

/-- JTAG instructions but those with rows of their own (Table 21-7). -/
inductive JtagInstr where
  | bypass | idcode | samplePreload | extest | clamp | highz | extestPulse | extestTrain
  /-- Any instruction Table 21-7 does not list, with the scope bit of Table 21-8 that opens it. -/
  | other (scope : Nat)
deriving DecidableEq, Repr

/-- What the power manager measures in one loop (Table 20-6, steps 2 and 3). -/
structure LoopReport where
  /-- Base-die sensors that gave a reading: sensor 0-63, 0.1 °C. -/
  base : List (Nat × Int) := []
  /-- Power drawn by each IVR phase, and the estimate of the IO rails, in mW. -/
  phases : List Nat := []
  io : Nat := 0
  /-- Power of each island, stack and compute die in mW. -/
  islands : List Nat := []
  nearStacks : List Nat := []
  dies : List Nat := []
  /-- Readings of the rails' sense points in mV (R736, R737): points 6d to 6d + 5 on compute die d, VCD_TA at three points,
  VCD_LOG, VCD_SRAM and VCD_IO; points 24-27 on VB_SLICE, VB_LOGIC, VB_MEM and VB_LINK. -/
  sense : List (Nat × Nat) := []
  /-- Compute dies that received the last STATE with a CRC error. -/
  stateLost : List Nat := []
deriving DecidableEq, Repr

/-- Wrong symbols a copy finds in a page (DPA div 4096), by codeword position (Table 9-3). -/
structure PageFault where
  page : Nat
  errs : List Nat
deriving DecidableEq, Repr

/-- What a test measures (Table 23-3). A part without a fault answers the defaults. -/
structure TestOutcome where
  /-- Logic BIST: the MISR value, and the expected-signature table's entry, if it has one (R976). -/
  misr : Nat := 0
  expected : Option Nat := some 0
  /-- Memory BIST: rows repaired, failing rows left, spare rows left, failing words. -/
  repaired : Nat := 0
  unrepaired : Nat := 0
  spares : Nat := 0
  failing : Nat := 0
  /-- Wire test: failing ports: cluster of the die 0-63, path, first failing wire; failing wires are `failing`. -/
  ports : List (Nat × Nat × Nat) := []
deriving DecidableEq, Repr

/-- A command of the block. Each constructor names its row of the table and the rule that governs it. -/
inductive Instr where
  /-- PWR_OK_ASSERT (R238): PWR_OK rises and, with COLD_RST_N released, the device leaves COLD and enters BOOTING with TBASE at zero. -/
  | pwrOkAssert
  /-- PWR_OK_DEASSERT (R236): Loss of PWR_OK is a cold reset: only the always-on domain stays powered and keys, board memory and the log are lost. -/
  | pwrOkDeassert
  /-- COLD_RST_N_ASSERT (R265): Assertion of COLD_RST_N of at least 1 µs makes the device COLD, takes precedence over any boot or PERST_N, and tri-states SPI. -/
  | coldRstNAssert (ns : Nat)
  /-- COLD_RST_N_RELEASE (R238): Release of COLD_RST_N with PWR_OK asserted starts a cold boot and zeroes TBASE. -/
  | coldRstNRelease
  /-- PERST_N_ASSERT (R264): PERST_N assertion places GDDR7 in self-refresh, resets the warden, the sealed island and every non-always-on island except the SMBus endpoint, and returns boot to step 2. -/
  | perstNAssert (ns : Nat)
  /-- PERST_N_RELEASE (R241): Release of PERST_N lets boot continue past step 5 with the sealed island leaving reset. -/
  | perstNRelease
  /-- WARDEN_DPLL_LOCK (R242): Lock of the warden island DPLL to CORE_REFCLK starts the warden ROM and TBASE. -/
  | wardenDpllLock
  /-- BOOT_STEP_END (R239): A boot step of Table 6-1 ends and the device begins the next step. -/
  | bootStepEnd (r : BootReport)
  /-- CONFIG_REQUEST (R244): A PCIe configuration request is answered with RRS from step 6 to step 10 and served afterwards. -/
  | configRequest (f : Nat) (c : ConfigAccess)
  /-- KYM_CQ_DB_WRITE (R1035): A write of KYM.CQ_DBq sets the command tail of an existing pair and marks its intake position pending. -/
  | kymCqDbWrite (f q : Nat) (v : BitVec 32)
  /-- KYM_RQ_DB_WRITE (R1035): A write of KYM.RQ_DBq returns consumed reply entries to the device. -/
  | kymRqDbWrite (f q : Nat) (v : BitVec 32)
  /-- KYM_URG_DB_WRITE (R116): A write of KYM.URG_DB submits the urgent command, or is ignored and sets overrun while busy. -/
  | kymUrgDbWrite (f : Nat) (v : BitVec 32)
  /-- AQ_ENABLE (R1033): Setting KYM.CTRL.aq_enable latches the admin pair and resets it as QUEUE_RESET does, or is ignored for bad sizes. -/
  | aqEnable (f : Nat)
  /-- AQ_DISABLE (R1033): Clearing KYM.CTRL.aq_enable stops intake from the admin pair while taken commands run on. -/
  | aqDisable (f : Nat)
  /-- WARDEN_CTRL_RESTART (R63): The PF writes KYM.WARDEN_CTRL.restart while the warden is HALTED and a warden restart begins. -/
  | wardenCtrlRestart (f : Nat) (v : BitVec 32)
  /-- WARDEN_CONTROL_MESSAGE (R62): A sideband warden-control message, handled by the host island, reads KYM.STATUS or requests a warden restart. -/
  | wardenControlMessage (restart : Bool)
  /-- WARDEN_RESTART_COMPLETE (R129): The restarted warden re-verifies its bank, ends interrupted commands with ST_INTERNAL and resumes intake. -/
  | wardenRestartComplete (bankOk : Bool)
  /-- LOCKSTEP_MISMATCH (R58): The comparator halts both warden cores, asserts FAULT_N and sets warden_state HALTED. -/
  | lockstepMismatch
  /-- SIDEBAND_KYMAL_REQUEST (R1036): An MCTP Kymal request message from the board management controller is received and posted to intake position 640. -/
  | sidebandKymalRequest (entry : Bytes) (inl : Bytes) (answers : Answers)
  /-- INTAKE_TAKE (R79): Intake takes one command from the next pending position and judges it against the checks of Table 3-3. -/
  | intakeTake (entry : Bytes) (ext : Bytes) (fenced : List Nat) (answers : Answers)
  /-- DEFERRED_FINAL_REPLY (R93): An accepted command finishes and its final reply is written, or orphaned if its function was reset. -/
  | deferredFinalReply (p : Path) (seq : BitVec 32) (answers : Answers)
  /-- QUEUE_ACCESS_ERROR (R121): A ring or indirect-buffer access ends in an error completion or poison and the queue is marked failed. -/
  | queueAccessError (e : QueueFault)
  /-- LEASE_BREAK_EFFECT (R111): A pending LEASE_BREAK takes effect once the holder's accepted commands have replied, ending leases and granting take. -/
  | leaseBreakEffect (ref : Nat)
  /-- FW_ACTIVATE_SWAP (R962): At the quiet point the warden pauses intake up to 50 ms, swaps the firmware image and resumes. -/
  | fwActivateSwap (bankOk : Bool) (pause : Nat)
  /-- HELLO (R152): Negotiates the Kymal version, opens the HELLO gate and reports identity. -/
  | hello (k : KCmd)
  /-- QUEUE_CREATE (R64): Creates queue pair 1–3 with its rings and vector, both rings empty. -/
  | queueCreate (k : KCmd)
  /-- QUEUE_DELETE (R139): Deletes queue pair 1–3 when it owes no final replies. -/
  | queueDelete (k : KCmd)
  /-- QUEUE_RESET (R157): Resets a pair's head, tail and sequence state, keeping leases and running commands. -/
  | queueReset (k : KCmd)
  /-- LEASE_ACQUIRE (R96): Grants a shared or exclusive lease if compatible, never queuing. -/
  | leaseAcquire (k : KCmd)
  /-- LEASE_RELEASE (R100): Ends the master's lease on a resource. -/
  | leaseRelease (k : KCmd)
  /-- LEASE_BREAK (R158): PF or sideband breaks every other holder's lease, at once or after their accepted commands finish. -/
  | leaseBreak (k : KCmd)
  /-- RESOURCE_ASSIGN (R159): Changes which function may use a resource without changing its generation. -/
  | resourceAssign (k : KCmd)
  /-- ORDER_ARM (R186): Arms or re-arms a standing order with new parameters. -/
  | orderArm (k : KCmd)
  /-- ORDER_CLEAR (R188): Clears a standing order, ending any triggered action at once. -/
  | orderClear (k : KCmd)
  /-- ORDER_QUERY (R186): Returns an order's state, trigger count and parameters. -/
  | orderQuery (k : KCmd)
  /-- EVENTQ_CONFIG (R1027): Configures or enables the function's event queue, starting at index 0. -/
  | eventqConfig (k : KCmd)
  /-- LOG_READ (R160): Returns device log records from a given sequence. -/
  | logRead (k : KCmd)
  /-- COUNTERS_READ (R215): Returns a function's or the device's cumulative lost-event counters. -/
  | countersRead (k : KCmd)
  /-- POLDER_CREATE (R291): Allocates and places a new polder and grants its creator the exclusive lease. -/
  | polderCreate (k : KCmd)
  /-- POLDER_FREE (R162): Invalidates translations into a polder, scrubs its granules with the uncorrectable pattern and frees it. -/
  | polderFree (k : KCmd)
  /-- POLDER_RESIZE (R164): Grows or shrinks a polder at the top of its range. -/
  | polderResize (k : KCmd)
  /-- POLDER_RESTRENGTH (R957): Converts a polder page by page to a new code strength. -/
  | polderRestrength (k : KCmd)
  /-- POLDER_REKEY (R428): Converts a polder page by page to a new key slot and invalidates its translations. -/
  | polderRekey (k : KCmd)
  /-- POLDER_SET_SLUICE (R296): Binds a polder to a sluice of its tier or unbinds it. -/
  | polderSetSluice (k : KCmd)
  /-- SLUICE_CONFIG (R300): Sets a sluice's tier, rate and burst within the tier admission limit. -/
  | sluiceConfig (k : KCmd)
  /-- BASIN_PARTITION (R349): Switches quarters of a slice between cache and scratchpad, writing back and invalidating the cache. -/
  | basinPartition (k : KCmd)
  /-- BASIN_QUOTA (R336): Sets a polder's Basin quota and thus its per-slice quota. -/
  | basinQuota (k : KCmd)
  /-- BASIN_FLUSH (R347): Walks every slice writing back, and optionally invalidating, a polder's lines. -/
  | basinFlush (k : KCmd)
  /-- SPACE_CREATE (R420): Binds an AST to one function and PASID. -/
  | spaceCreate (k : KCmd)
  /-- SPACE_DESTROY (R456): Destroys an address space after invalidation and a PRI Stop Marker. -/
  | spaceDestroy (k : KCmd)
  /-- TRANSLATE_FILL (R441): Answers a translation or fault request by installing a device entry or failing it. -/
  | translateFill (k : KCmd)
  /-- INVAL_RANGE (R166): Invalidates one AST's entries over a range by the invalidation handshake. -/
  | invalRange (k : KCmd)
  /-- INVAL_TAG (R166): Invalidates every entry of one AST by the invalidation handshake. -/
  | invalTag (k : KCmd)
  /-- APERTURE_MAP (R464): Maps a cluster aperture slot to a polder range with rights. -/
  | apertureMap (k : KCmd)
  /-- APERTURE_UNMAP (R464): Unmaps a cluster aperture slot. -/
  | apertureUnmap (k : KCmd)
  /-- ACCESS_COUNT_SET (R465): Enables or disables host access counting for an address space with a threshold. -/
  | accessCountSet (k : KCmd)
  /-- CHANNEL_OPEN (R486): Opens a host pump channel with its ring, address space, fault capability and vector. -/
  | channelOpen (k : KCmd)
  /-- CHANNEL_CLOSE (R168): Discards unstarted descriptors, lets the running one finish, and closes the channel. -/
  | channelClose (k : KCmd)
  /-- CHANNEL_RESUME (R518): Retries or skips a halted descriptor and returns the channel to open. -/
  | channelResume (k : KCmd)
  /-- CADDY_STAGE (R552): Checks a caddy container in board memory and creates its directory entry. -/
  | caddyStage (k : KCmd)
  /-- CADDY_INFUSE (R557): Infuses a staged caddy's sections into near memory, checks digests and applies infusion-time records. -/
  | caddyInfuse (k : KCmd)
  /-- CADDY_BIND (R566): Creates work polders, picks quarters and channels, applies bind-time records, loads sequencers and binds streams. -/
  | caddyBind (k : KCmd)
  /-- CADDY_UNBIND (R550): Releases what CADDY_BIND took and frees the work polders. -/
  | caddyUnbind (k : KCmd)
  /-- CADDY_EVICT (R550): Moves a caddy to STAGED or ABSENT. -/
  | caddyEvict (k : KCmd)
  /-- PROGRAM_START (R170): Admits a program against unreserved tokens and sets its start time 20 µs ahead. -/
  | programStart (k : KCmd)
  /-- PROGRAM_STOP (R648): Discards unstarted operations, stops sequencers at their next slot boundary and releases the envelope. -/
  | programStop (k : KCmd)
  /-- CONTEXT_MOVE (R570): Evicts a context with DRY or recalls it with INFUSE between two polders. -/
  | contextMove (k : KCmd)
  /-- CLUSTER_BIND (R720): Binds a cluster stream unit to a pump channel, gather lane or sequencer. -/
  | clusterBind (k : KCmd)
  /-- CLUSTER_UNBIND (R720): Removes both directions' bindings of a cluster stream unit. -/
  | clusterUnbind (k : KCmd)
  /-- POWER_QUERY (R898): Returns pool, power and temperature results and optionally the telemetry buffer. -/
  | powerQuery (k : KCmd)
  /-- ISLAND_CLOCK_SET (R172): Sets the clock of a unit's home island within nominal and a quarter of nominal. -/
  | islandClockSet (k : KCmd)
  /-- PORT_TRAIN (R174): Trains a link port to ACTIVE or QUARANTINE. -/
  | portTrain (k : KCmd)
  /-- PORT_QUALIFY (R786): Runs PRBS31 error counting on a port's lanes for a duration. -/
  | portQualify (k : KCmd)
  /-- PORT_MARGIN (R791): Scans a lane's eyes during traffic, or reads the held result. -/
  | portMargin (k : KCmd)
  /-- TRUNK_CONFIG (R796): Bonds 2–8 ports into a trunk or dissolves it. -/
  | trunkConfig (k : KCmd)
  /-- WINDOW_SET (R815): Configures an outbound or inbound cohort window. -/
  | windowSet (k : KCmd)
  /-- COHORT_CONFIG (R810): Gives the device member id, cohort size, blob and compatibility list, in pieces on the sideband. -/
  | cohortConfig (k : KCmd)
  /-- COHORT_EPOCH (R835): Advances the device's cohort epoch. -/
  | cohortEpoch (k : KCmd)
  /-- TIME_LEADER_SET (R831): Sets the time leader, steering source and tolerance. -/
  | timeLeaderSet (k : KCmd)
  /-- PATROL_CONFIG (R408): Sets a channel's patrol period and charged sluice. -/
  | patrolConfig (k : KCmd)
  /-- REMAP_SCHEDULE (R256): Writes a pending row-repair record to flash for the next boot. -/
  | remapSchedule (k : KCmd)
  /-- HEALTH_READ (R402): Returns a unit's error and retry counters. -/
  | healthRead (k : KCmd)
  /-- UNIT_QUERY (R1024): Returns a resource's state, holders, assignment and per-kind fields. -/
  | unitQuery (k : KCmd)
  /-- UNIT_DRAIN (R946): Moves a unit from IN_SERVICE through DRAINING toward OUT_OF_SERVICE. -/
  | unitDrain (k : KCmd)
  /-- UNIT_RETURN (R948): Applies a unit reset and bring-up and returns the unit to IN_SERVICE. -/
  | unitReturn (k : KCmd)
  /-- SERVICE_ENTER (R175): Moves the device from UNCONFIGURED to SERVICE when all mandatory orders are armed. -/
  | serviceEnter (k : KCmd)
  /-- FW_STAGE (R960): Copies and verifies a firmware image into a bank. -/
  | fwStage (k : KCmd)
  /-- FW_ACTIVATE (R961): Waits for the quiet point, re-verifies the bank and activates it. -/
  | fwActivate (k : KCmd)
  /-- TEST_RUN (R967): Runs logic BIST, memory BIST or the die-to-die wire test on an out-of-service unit. -/
  | testRun (k : KCmd)
  /-- TEST_RESULT (R977): Returns a unit's latest test result. -/
  | testResult (k : KCmd)
  /-- KEY_GENERATE (R911): Fills a key slot with two distinct DRBG keys. -/
  | keyGenerate (k : KCmd)
  /-- KEY_DESTROY (R913): Zeroes a key slot and every sealed-cell copy of it. -/
  | keyDestroy (k : KCmd)
  /-- DEBUG_CHALLENGE (R936): Returns a fresh 32-byte nonce valid for one unlock within 60 s. -/
  | debugChallenge (k : KCmd)
  /-- DEBUG_UNLOCK (R937): Wipes key slots, zeroes the Basin, then verifies the token and opens its scope. -/
  | debugUnlock (k : KCmd)
  /-- NONCE_EXPIRY (R936): The debug nonce stops serving 60 s of TBASE after DEBUG_CHALLENGE. -/
  | nonceExpiry
  /-- EVENT_COLLECT (R201): A unit posts an event; the collector numbers and stamps it, drives FAULT_N, or holds or counts it. -/
  | eventCollect (code severity unit detail : Nat)
  /-- EVENT_ROUTE (R204): The warden writes an event to the device log and to the owning function's queue. -/
  | eventRoute
  /-- SPILLWAY_WRITE (R213): When a queue holding a first loss has room, the warden writes one SPILLWAY record first. -/
  | spillwayWrite (f : Nat)
  /-- FAULT_N_EXPIRY (R198): FAULT_N releases 10 ms after the last FAILED or FATAL event unless LOST or HALTED. -/
  | faultNExpiry
  /-- EVQ_HEAD_WRITE (R1025): A write of EVQ.HEAD frees queue entries, or is ignored if out of range or ahead of written records. -/
  | evqHeadWrite (f : Nat) (v : BitVec 32)
  /-- MSIX_VECTOR_UNMASK (R853): Unmasking a vector or enabling MSI-X sends messages for pending bits. -/
  | msixVectorUnmask (f : Nat) (w : MsixWrite)
  /-- TIME_LO_READ (R220): A 4-byte read of TIME.LO returns the low half and snapshots the high half, setting TORN if it replaces one. -/
  | timeLoRead (f : Nat)
  /-- TIME_HI_READ (R221): A 4-byte read of TIME.HI returns the snapshot, or live data with TORN set. -/
  | timeHiRead (f : Nat)
  /-- TIME_READ_8B (R50): An aligned 8-byte read of the time registers returns both halves from one instant. -/
  | timeRead8b (f : Nat)
  /-- SBR_BLOCK_WRITE (R866): An SMBus Block Write sets the sideband register offset and optionally writes 32 bits. -/
  | sbrBlockWrite (offset : Nat) (data : Option (BitVec 32))
  /-- SBR_BLOCK_READ (R866): An SMBus Block Read returns 32 bits from the last offset under the snapshot rule. -/
  | sbrBlockRead
  /-- SMBUS_ARP (R864): SMBus ARP assigns the target address, kept until cold reset. -/
  | smbusArp (addr : Nat)
  /-- REGISTER_WRITE (R1039): A BAR0 write to a register without its own row updates the field or is ignored. -/
  | registerWrite (f offset : Nat) (data : Bytes)
  /-- JTAG_SBR_ACCESS (R935): The SBR_ACCESS instruction reads the sideband register space with TORN. -/
  | jtagSbrAccess (offset : Nat)
  /-- JTAG_TESTRUN (R935): The TESTRUN instruction runs TEST_RUN or TEST_RESULT on an out-of-service unit. -/
  | jtagTestrun (test : Option Nat) (u : Nat)
  /-- BOND_EXTEST (R985): Drives walking patterns on every bond wire while no slot is loaded and no port ACTIVE. -/
  | bondExtest
  /-- JTAG_BOUNDARY_SCAN (R935): IEEE 1149.1 and 1149.6 instructions test package balls and AC-coupled lanes. -/
  | jtagBoundaryScan (i : JtagInstr)
  /-- TBASE_BROADCAST (R47): Every 1,024 ns the master broadcasts TBASE and followers slew toward it. -/
  | tbaseBroadcast
  /-- ISLAND_DPLL_LOCK_LOSS (R184): An island DPLL loses lock and its clock is gated. -/
  | islandDpllLockLoss (i : Nat)
  /-- ISLAND_DPLL_RELOCK (R184): The DPLL relocks within 10 µs and the island resumes with a CORRECTED event. -/
  | islandDpllRelock (i : Nat)
  /-- DPLL_LOCK_TIMEOUT (R55): A DPLL unlocked for more than 10 µs leaves its island stopped and asserts FAULT_N. -/
  | dpllLockTimeout (i : Nat)
  /-- CONTROL_LOOP (R877): Every 10 µs the power manager forms power and Tj, evaluates orders, updates the pool and sets clocks and rails. -/
  | controlLoop (r : LoopReport)
  /-- STACK_SENSOR_READOUT (R190): Every 10 µs a stack's sensors are read and its SO_STACK_THERMAL evaluated. -/
  | stackSensorReadout (stack : Nat) (temps : List Nat)
  /-- BOARD_TEMP_READ (R308): Every 1 ms a board channel reads device temperature and sets its refresh interval. -/
  | boardTempRead (b tj divisor : Nat)
  /-- REFRESH (R307): A near channel refreshes rows at the interval its stack Tj band gives. -/
  | refresh (n : Nat)
  /-- THERM_TRIP (R894): A comparator at 115 °C asserts THERM_TRIP_N until PWR_OK falls. -/
  | thermTrip (k : Nat)
  /-- PHASE_OVERCURRENT (R876): An IVR phase trips its over-current protection and drops out of its rail. -/
  | phaseOvercurrent (phase : Nat)
  /-- PSB_IDENTITY (R742): A compute die's IDENTITY message is checked for protocol version and cluster count. -/
  | psbIdentity (d : Nat) (body : Bytes) (crc : Nat)
  /-- DIE_HANDSHAKE_TIMEOUT (R742): A die without DREADY and IDENTITY within 50 ms fails its boot handshake. -/
  | dieHandshakeTimeout (d : Nat)
  /-- PSB_CLUSTER_POWER (R739): A compute die reports eight cluster powers. -/
  | psbClusterPower (d : Nat) (body : Bytes) (crc : Nat)
  /-- PSB_SENSORS (R739): A compute die reports eight sensor temperatures. -/
  | psbSensors (d : Nat) (body : Bytes) (crc : Nat)
  /-- PSB_GRANTS (R741): A compute die reports grants in use, ending grants whose bits are clear. -/
  | psbGrants (d : Nat) (body : Bytes) (crc : Nat)
  /-- DTHERM_N_ASSERT (R903): A compute die's DTHERM_N sets a THERM_ALERT_N condition. -/
  | dthermNAssert (d : Nat) (level : Bool)
  /-- NARROW_READ (R305): A 32-byte sector read fetches the sector and CRC beat, falling back to full decode on mismatch. -/
  | narrowRead (dpa : Nat) (faults : List Nat)
  /-- FULL_READ (R374): A page and tail are read, syndromes checked, and the outcome classified and acted on. -/
  | fullRead (page : Nat) (faults : List Nat)
  /-- MERGE_WRITE (R380): A sub-page write joins or opens its page's merge-buffer entry, waiting if all entries are open. -/
  | mergeWrite (dpa : Nat) (data : Bytes) (poisoned : List Nat)
  /-- FULL_PAGE_WRITE (R388): A whole-page write discards the entry and writes a fresh tail. -/
  | fullPageWrite (page : Nat) (data : Bytes)
  /-- MERGE_COMMIT (R382): An entry commits on its 2 µs window, its 16th sector or an early event, by parity delta. -/
  | mergeCommit (n page : Nat)
  /-- BOARD_ACCESS_CRC_FAIL (R311): A board access failing CRC or parity is retried up to four times. -/
  | boardAccessCrcFail (b : Nat) (write : Bool) (page retries : Nat)
  /-- PATROL_PAGE (R408): The paced patrol walker reads and repairs one page under a lock. -/
  | patrolPage (n : Nat) (faults : List Nat)
  /-- LIVE_ROW_REMAP (R415): A row reaching its threshold is copied to a spare and entered in the remap table. -/
  | liveRowRemap (n bank row : Nat)
  /-- STACK_READOUT_SILENT (R323): A stack management readout silent for 1 ms declares the stack failed. -/
  | stackReadoutSilent (stack : Nat)
  /-- STACK_FAILURE (R319): A near island declares its stack failed on a Table 7-5 condition. -/
  | stackFailure (stack cause channel wire group : Nat)
  /-- SLUICE_REDIVISION (R299): Every 10 µs each sluice's credit is redivided and shortfall windows counted. -/
  | sluiceRedivision (waiting : List Nat)
  /-- BASIN_ACCESS (R333): An access is looked up at its home slice, served on hit, allocated or sent to memory on miss. -/
  | basinAccess (r : BasinRequest)
  /-- LINE_FILL (R337): A line fill returns from memory and allocates under quota or passes through. -/
  | lineFill (who : Requester) (dpa : Nat)
  /-- REDUCER_OPERATION (R585): A reducer applies an operation in the merge-buffer entry of its target and acknowledges it. -/
  | reducerOperation (r : RedSource)
  /-- PUMP_DB_WRITE (R489): A write of PUMP.DB sets a host channel's tail, or is ignored. -/
  | pumpDbWrite (f e c : Nat) (v : BitVec 32)
  /-- PUMP_READ_AHEAD (R433): An engine reads and checks a ring entry and translates every page it touches. -/
  | pumpReadAhead (e c : Nat) (entry : Bytes)
  /-- PUMP_DISPATCH (R498): A channel dispatches its next descriptor in order and moves its tile. -/
  | pumpDispatch (e c : Nat)
  /-- HOST_READ_COMPLETION (R513): A host read completion arrives, delivering data or halting the channel with cause 0x11. -/
  | hostReadCompletion (e c index tile : Nat) (data : Option Bytes)
  /-- DESCRIPTOR_COMPLETE (R500): A descriptor's writes become visible; the completion word, head and vector follow. -/
  | descriptorComplete (e c index : Nat)
  /-- ATS_COMPLETION (R444): An ATS completion installs entries or ends the translation unmapped or failed. -/
  | atsCompletion (ast page : Nat) (r : AtsReply)
  /-- PRG_RESPONSE (R450): A PRG Response repeats the ATS request or halts the parked channel. -/
  | prgResponse (f group : Nat) (code : PrgCode)
  /-- ATS_INVALIDATE_REQUEST (R475): A host ATS Invalidate Request runs the handshake and then sends the Invalidate Completion. -/
  | atsInvalidateRequest (f tag pasid page count : Nat)
  /-- ENGINE_INVAL_ACK (R471): An engine acknowledges after dropping entries, re-marking work and finishing accesses; the last ack completes the invalidation. -/
  | engineInvalAck (i : Nat)
  /-- ACCESS_COUNT_WINDOW (R465): Each 10 ms window of access counting ends and counts restart. -/
  | accessCountWindow
  /-- ATS_ENABLE_CLEAR (R858): Clearing ATS Enable drops every host entry of the function by the handshake. -/
  | atsEnableClear (f : Nat)
  /-- PRI_ENABLE_CLEAR (R859): Clearing PRI Enable sends Stop Markers and switches faults to EV_FAULT_REQUEST. -/
  | priEnableClear (f : Nat)
  /-- INFUSER_JOB_START (R547): A held Infuser job starts on its unit once tokens are available. -/
  | infuserJobStart (u : Nat) (host : Option Bytes)
  /-- INFUSER_JOB_COMPLETE (R535): An Infuser job's pages become visible and its completion word is written. -/
  | infuserJobComplete (u : Nat)
  /-- GATHER_JOB_ACCEPT (R600): A gather lane accepts a job, checks it, reads scores and builds its skip mask. -/
  | gatherJobAccept (e lane : Nat) (scores : Bytes)
  /-- GATHER_SLOT_RELEASE (R608): A slot's release time on the job's grid arrives. -/
  | gatherSlotRelease (e lane : Nat)
  /-- GATHER_SLOT_DELIVER (R610): A slot is delivered as DATA, SKIP or POISON once released and ready. -/
  | gatherSlotDeliver (e lane : Nat) (host : Option Bytes)
  /-- GATHER_JOB_COMPLETE (R613): A gather job ends and writes its completion record with late count. -/
  | gatherJobComplete (e lane : Nat)
  /-- PROGRAM_START_TIME (R632): At the start time each sequencer sets its registers and begins slot 0. -/
  | programStartTime (q : Nat)
  /-- SLOT_BOUNDARY (R635): A sequencer's slot boundary arrives, completing slot-waits and stops. -/
  | slotBoundary (q : Nat)
  /-- TOKEN_GRANT (R643): The power manager grants a waiting TOK.ACQ whole when the pool allows. -/
  | tokenGrant
  /-- SEQ_LOAD_RETURN (R678): Load data returns to a sequencer, writing registers or trapping on poison. -/
  | seqLoadReturn (q : Nat) (faults : List WordFault)
  /-- OPERATION_COMPLETION (R681): An issued operation writes its completion to scratch and then increments its counter. -/
  | operationCompletion (q op : Nat)
  /-- RED_ACK_RECEIVED (R702): A reducer acknowledgement reaches the sequencer, returning tokens or trapping on failure. -/
  | redAckReceived (q op : Nat)
  /-- SIGNAL_ARRIVAL (R638): A signal post adds to a counter, possibly completing a SIG.WAIT. -/
  | signalArrival (src dst : Nat)
  /-- FENCE_COMPLETE (R693): The operations a FENCE waits for have completed and it completes. -/
  | fenceComplete (q : Nat)
  /-- END_COMPLETE (R646): END completes when the sequencer's operations are done and releases its tokens. -/
  | endComplete (q : Nat)
  /-- NOP (R706): Does nothing for one cycle. -/
  | opNop (q : Nat)
  /-- JAL (R666): Jumps relative to pc and links. -/
  | opJal (q : Nat)
  /-- JALR (R666): Jumps to a register target and links. -/
  | opJalr (q : Nat)
  /-- BR (R666): Branches on a register comparison. -/
  | opBr (q : Nat)
  /-- BRI (R666): Branches on a comparison with an immediate. -/
  | opBri (q : Nat)
  /-- SEL (R706): Selects one of two registers by a third. -/
  | opSel (q : Nat)
  /-- END (R646): Waits for outstanding work, releases tokens and goes idle. -/
  | opEnd (q : Nat)
  /-- ALU (R672): Register-register arithmetic or logic. -/
  | opAlu (q : Nat)
  /-- ALUI (R672): Register-immediate arithmetic or logic. -/
  | opAlui (q : Nat)
  /-- LI (R706): Loads a sign-extended immediate. -/
  | opLi (q : Nat)
  /-- LIH (R706): Loads an immediate into the high half. -/
  | opLih (q : Nat)
  /-- LDS (R673): Loads from local scratch. -/
  | opLds (q : Nat) (faults : List WordFault)
  /-- STS (R673): Stores to local scratch. -/
  | opSts (q : Nat) (faults : List WordFault)
  /-- LD (R678): Blocking load from kind 1 or 2 memory. -/
  | opLd (q : Nat)
  /-- ST (R677): Posted store to kind 1 or 2 memory. -/
  | opSt (q : Nat)
  /-- LD_PAIR (R676): Indivisible 16-byte load into a register pair. -/
  | opLdPair (q : Nat)
  /-- ST_PAIR (R676): Indivisible 16-byte store from a register pair. -/
  | opStPair (q : Nat)
  /-- PREF (R679): Looks up and allocates a line without delivering data. -/
  | opPref (q : Nat)
  /-- PUMP_ISS (R680): Issues a scratch descriptor to a program channel. -/
  | opPumpIss (q : Nat) (faults : List WordFault)
  /-- GATH_ISS (R682): Issues a gather job, taking 2 tokens. -/
  | opGathIss (q : Nat) (faults : List WordFault)
  /-- INF_ISS (R682): Issues an Infuser job, taking 40 tokens. -/
  | opInfIss (q : Nat) (faults : List WordFault)
  /-- RED (R687): Sends a reducer operation, optionally ORDERED. -/
  | opRed (q : Nat) (faults : List WordFault)
  /-- GRANT (R688): Grants tensor arrays to cluster slots for 2 tokens each. -/
  | opGrant (q : Nat)
  /-- STRM_BIND (R689): Rebinds a cluster stream unit to an owned endpoint. -/
  | opStrmBind (q : Nat)
  /-- STRM_SEND (R691): Sends scratch blocks on a stream unit, optionally paced. -/
  | opStrmSend (q : Nat) (faults : List WordFault)
  /-- STRM_RECV (R691): Receives stream blocks into scratch. -/
  | opStrmRecv (q : Nat)
  /-- FENCE (R693): Waits for earlier operations of the named classes. -/
  | opFence (q : Nat)
  /-- TOK_ACQ (R641): Requests tokens within the envelope, blocking until granted. -/
  | opTokAcq (q : Nat)
  /-- TOK_REL (R695): Releases held tokens not in use. -/
  | opTokRel (q : Nat)
  /-- SIG_POST (R696): Posts a value to a program sequencer's or bound cluster's counter. -/
  | opSigPost (q : Nat)
  /-- SIG_WAIT (R638): Waits until a counter reaches a value, then subtracts it. -/
  | opSigWait (q : Nat)
  /-- SIG_READ (R706): Reads a signal counter. -/
  | opSigRead (q : Nat)
  /-- SLOT_WAIT (R636): Waits for a slot boundary, counting a late slot if passed. -/
  | opSlotWait (q : Nat)
  /-- SLOT_LEN (R698): Sets the slot length from the next boundary. -/
  | opSlotLen (q : Nat)
  /-- SLOT_GET (R706): Reads the boundaries passed since slot 0. -/
  | opSlotGet (q : Nat)
  /-- TIME_GET (R699): Reads the slice's TBASE follower at one instant. -/
  | opTimeGet (q : Nat)
  /-- CSR_RD (R706): Reads a sequencer CSR. -/
  | opCsrRd (q : Nat)
  /-- DBG_MARK (R700): In debug writes a TBASE mark to scratch, else NOP. -/
  | opDbgMark (q : Nat)
  /-- DBG_STOP (R701): In debug stops the sequencer, else NOP. -/
  | opDbgStop (q : Nat)
  /-- D2D_GROUP_RECEIVED (R712): A die-to-die group is received, CRC- and sequence-checked, acknowledged, naked or replayed. -/
  | d2dGroupReceived (c : Nat) (a : D2dArrival)
  /-- APERTURE_REQUEST (R727): A cluster aperture request is checked and passed to the home slice. -/
  | apertureRequest (c tag : Nat) (faults : List WordFault)
  /-- APERTURE_RESPONSE (R725): The result of an aperture request returns to the cluster. -/
  | apertureResponse (c tag : Nat)
  /-- SIGNAL_MESSAGE (R729): A CTRL SIGNAL message from a cluster posts to a sequencer counter. -/
  | signalMessage (c rank : Nat)
  /-- TRAP_MESSAGE (R730): A cluster TRAP message raises EV_CLUSTER_TRAP. -/
  | trapMessage (c : Nat)
  /-- CREDITS_MESSAGE (R722): A CREDITS message advertises receive buffers per unit. -/
  | creditsMessage (c : Nat)
  /-- FETCH_REQUEST (R733): A fetch frame is answered with the line, POISON, OUT_OF_WINDOW or NO_CODE. -/
  | fetchRequest (c frame wire : Nat) (faults : List WordFault)
  /-- FLIT_RECEIVED (R766): A DATA flit is checked and accepted in order or discarded with a nak. -/
  | flitReceived (p : Nat) (line : List (List Nat))
  /-- TAG_FLIT_RECEIVED (R764): A TAG flit verifies its segment and releases its transactions, or fails the port for cause 5.
Its segment may have begun in the superframe before its own: `line` and `next` are two in a row, each there or not. -/
  | tagFlitReceived (p : Nat) (line next : List (List Nat))
  /-- LINK_FLIT_RECEIVED (R770): A LINK flit delivers a nak, credit totals or a retrain request. -/
  | linkFlitReceived (p : Nat) (line : List (List Nat))
  /-- REPLAY_TIMEOUT (R769): 2 µs without acknowledgement advance resends every unacknowledged flit. -/
  | replayTimeout (p : Nat)
  /-- PARTNER_SILENT (R783): No flit accepted for 10 µs makes the port leave ACTIVE for cause 3. -/
  | partnerSilent (p : Nat)
  /-- LINK_REFCLK_LOST (R781): A quadrant reference lost in service makes its ports leave ACTIVE for cause 7. -/
  | linkRefclkLost (q : Nat)
  /-- LINK_RETRAIN_END (R785): A retrain under SO_LINK_RETRAIN reaches ACTIVE or fails. -/
  | linkRetrainEnd (p : Nat) (ok : Bool)
  /-- TRAINING_FRAME (R773): A training frame advances DETECT, EQUALISE or ALIGN. -/
  | trainingFrame (p : Nat) (f : TrainFrame)
  /-- IDENTIFY_EXCHANGE (R775): The partner's chain and signed ephemeral key are verified and link keys derived. `chain`: the chain
verifies against the device root. -/
  | identifyExchange (p : Nat) (chain : Bool) (i : PartnerIdentity)
  /-- MANIFEST_MESSAGE (R778): A MANIFEST message decides ACTIVE or QUARANTINE. -/
  | manifestMessage (p : Nat)
  /-- QUALIFY_CHECKER_LOCK (R787): A PRBS31 checker locks after 1,024 error-free bits. -/
  | qualifyCheckerLock (p lane : Nat)
  /-- QUALIFY_END (R789): The QUALIFY duration ends, results are reported and the port is untrained. -/
  | qualifyEnd (p : Nat) (errors : List Nat)
  /-- MARGIN_SCAN_END (R791): A MARGIN scan completes and its result is held. -/
  | marginScanEnd (p lane : Nat) (m : MarginScan)
  /-- REMOTE_REQUEST (R817): A REQ transaction at the completer is checked, translated and applied, or relayed. -/
  | remoteRequest (p : Nat) (faults : List WordFault)
  /-- REMOTE_COMPLETION (R822): A CPL reaches its requester, completing or halting it on error. -/
  | remoteCompletion (p : Nat)
  /-- TIME_REQUEST_SEND (R828): Every 100 µs a port sends a TIME request. -/
  | timeRequestSend (p : Nat)
  /-- TIME_MESSAGE (R829): A TIME request is answered, or a response updates the offset estimate and steering. -/
  | timeMessage (p : Nat)
  /-- COHORT_SYNC_PULSE (R833): A leader drives COHORT_SYNC at each millisecond of TBASE. -/
  | cohortSyncPulse
  /-- COHORT_SYNC_EDGE (R833): A follower stamps a COHORT_SYNC edge and updates its estimate. -/
  | cohortSyncEdge
  /-- COHORT_SYNC_TIMEOUT (R834): 10 ms without an edge stops steering. -/
  | cohortSyncTimeout
  /-- BAR2_ACCESS (R844): A BAR2 read or write reaches the mapped polder through the home slice. -/
  | bar2Access (f : Nat) (r : Bar2Request)
  /-- BAR2_MAP_WRITE (R845): A write of BAR2.MAPn maps, refuses or unmaps a slot. -/
  | bar2MapWrite (f n : Nat) (w : MapWrite)
  /-- FUNCTION_LEVEL_RESET (R124): A function's Kymal state, leases, channels and BAR2 maps are reset. -/
  | functionLevelReset (f : Nat)
  /-- VF_ENABLE (R868): Setting VF Enable enables VFs 1–k at reset values. -/
  | vfEnable (k : Nat)
  /-- VF_DISABLE (R869): Clearing or lowering VFs resets each removed VF. -/
  | vfDisable (k : Nat)
  /-- IDE_MAC_FAILURE (R861): A TLP failing its MAC sends the IDE stream Insecure. -/
  | ideMacFailure (i : Nat)
  /-- SPDM_REQUEST (R863): An SPDM request on the DOE mailbox is answered. -/
  | spdmRequest (version : Nat) (r : SpdmRequest)
  /-- IDE_KM_KEY_PROG (R931): IDE_KM KEY_PROG loads IDE stream keys into HOST sealed cells. -/
  | ideKmKeyProg (p : IdeKeyProg)
  /-- GLITCH_DETECT (R925): A supply, clock or temperature glitch resets the sealed island. -/
  | glitchDetect (detectors : Nat) (testsOk : Bool)
  /-- ENTROPY_HEALTH_FAIL (R910): A continuous health test fails and start-up tests rerun up to three times. -/
  | entropyHealthFail (passes : Bool)
  /-- STRIPE_MOVE (R953): During a drain one stripe or slab is invalidated, copied under page locks and re-placed. -/
  | stripeMove (n : Nat) (faults : List PageFault)
  /-- DRAIN_END (R947): A draining unit meets its end condition and enters OUT_OF_SERVICE. -/
  | drainEnd (u : Nat)
  /-- CONVERSION_PAGE (R957): A restrength or rekey converts one page under a lock and moves the boundary. -/
  | conversionPage (polder : Nat)
  /-- TEST_COMPLETE (R975): A test ends and the warden forms its verdict and result. -/
  | testComplete (u : Nat) (o : TestOutcome)
  /-- COMPLETION_TIMEOUT (R446): The PCIe completion timer of a non-posted request the device issued (an ATS Translation Request or a pump host read) expires; the translation ends failed with cause 4, or the channel halts with cause 0x11. -/
  | completionTimeout (t : Timeout)
  /-- BLOCK_LOCK_LOST (R781): A link lane's receiver loses block lock; an ACTIVE port leaves ACTIVE for cause 4, and a running MARGIN scan ends with ST_STATE. -/
  | blockLockLost (p lane : Nat)
  /-- STUFF_DEBT_OVERFLOW (R804): A lane's transmit stuff debt exceeds 64 symbols and the port leaves ACTIVE for cause 6.
The row is the sending of `frames` superframes, after which `lane` is looked at first. -/
  | stuffDebtOverflow (p lane frames : Nat)
  /-- VIN_IVR_UNDERVOLTAGE (R991): VIN_IVR falls below 1.60 V and the IVR phases stop switching, then rises above 1.65 V and they start again. -/
  | vinIvrUndervoltage (mv : Nat)
  /-- PATROL_RATE_WINDOW (R226): SO_PATROL_RATE triggers when corrected pages over the last hour reach trigger, and is released after hold hours below it. -/
  | patrolRateWindow (n : Nat)
  /-- TRST_N_ASSERT (R1012): Assertion of TRST_N resets the JTAG TAP. -/
  | trstNAssert
  /-- INVALID_INSTRUCTION_WORD (R665): A word whose opcode Table 15-2 does not list, such as an all-zero word, reaches issue and traps its sequencer with cause 0x01. -/
  | invalidInstructionWord (q : Nat)
deriving DecidableEq, Repr

end Sys2Proof
end

