-- ==== Sys2Proof/Decode.lean ====
section
/-! DEFINITION. The command that a word spells by the table's bits. No row of the table gives its command bits: commands
are writes, reads and events, named by the constructors of `Instr`. The words of the sequencers' own programs are read by
`Machine.decodeSeq`. -/

namespace Sys2Proof

/-- No row of the table gives bits, so no word spells a command. -/
def decodeTableWord (_nbits _w : Nat) : Option Instr := none

end Sys2Proof
end

