-- ==== Sys2Proof/Machine/Bits.lean ====
section
/-! DEFINITION. Byte order, bit fields and sparse banks: the helpers every meaning uses. -/

namespace Sys2Proof

namespace Bank

/-- Lookup in a list of numbered cells. -/
def find {α : Type} : List (Nat × α) → Nat → Option α
  | [], _ => none
  | (k, v) :: t, i => if k = i then some v else find t i

/-- Insertion in rising order, replacing an equal number. -/
def put {α : Type} : List (Nat × α) → Nat → α → List (Nat × α)
  | [], i, v => [(i, v)]
  | (k, w) :: t, i, v =>
    if i < k then (i, v) :: (k, w) :: t else if i = k then (i, v) :: t else (k, w) :: put t i v

/-- Removal of one number. -/
def del {α : Type} (l : List (Nat × α)) (i : Nat) : List (Nat × α) := l.filter fun c => c.1 != i

def get? {α : Type} (b : Bank α) (i : Nat) : Option α := find b.cells i

/-- The entry at `i`, or what an unlisted number reads as. -/
def get {α : Type} (b : Bank α) (d : α) (i : Nat) : α := (b.get? i).getD d

def has {α : Type} (b : Bank α) (i : Nat) : Bool := (b.get? i).isSome

def set {α : Type} (b : Bank α) (i : Nat) (v : α) : Bank α := ⟨put b.cells i v⟩

def erase {α : Type} (b : Bank α) (i : Nat) : Bank α := ⟨del b.cells i⟩

/-- Changes the listed entry at `i`; nothing where it is unlisted. -/
def modify {α : Type} (b : Bank α) (i : Nat) (f : α → α) : Bank α :=
  match b.get? i with
  | some v => b.set i (f v)
  | none => b

/-- Changes the entry at `i`, an unlisted one counting as `d`. -/
def upd {α : Type} (b : Bank α) (d : α) (i : Nat) (f : α → α) : Bank α := b.set i (f (b.get d i))

def map {α β : Type} (b : Bank α) (f : Nat → α → β) : Bank β := ⟨b.cells.map fun p => (p.1, f p.1 p.2)⟩

def keep {α : Type} (b : Bank α) (p : Nat → α → Bool) : Bank α := ⟨b.cells.filter fun c => p c.1 c.2⟩

def any {α : Type} (b : Bank α) (p : Nat → α → Bool) : Bool := b.cells.any fun c => p c.1 c.2

def all {α : Type} (b : Bank α) (p : Nat → α → Bool) : Bool := b.cells.all fun c => p c.1 c.2

def count {α : Type} (b : Bank α) (p : Nat → α → Bool) : Nat := (b.cells.filter fun c => p c.1 c.2).length

/-- Sum of a figure over the listed entries. -/
def total {α : Type} (b : Bank α) (f : Nat → α → Nat) : Nat := b.cells.foldl (fun n c => n + f c.1 c.2) 0

def find? {α : Type} (b : Bank α) (p : Nat → α → Bool) : Option (Nat × α) := b.cells.find? fun c => p c.1 c.2

def keys {α : Type} (b : Bank α) : List Nat := b.cells.map (·.1)

/-- The canonical form: numbers strictly rising. -/
def sorted {α : Type} : List (Nat × α) → Bool
  | [] => true
  | [_] => true
  | (a, _) :: (b, w) :: t => decide (a < b) && sorted ((b, w) :: t)

end Bank

/-- Little-endian value of a byte run (R8). -/
def leNat : Bytes → Nat
  | [] => 0
  | b :: t => b.toNat + 256 * leNat t

/-- The `n` little-endian bytes of a value (R8). -/
def toLE : Nat → Nat → Bytes
  | 0, _ => []
  | n + 1, v => BitVec.ofNat 8 v :: toLE n (v / 256)

/-- Bytes `off` to `off + n - 1` of a run as a little-endian value; bytes past its end read zero. -/
def fieldAt (bs : Bytes) (off n : Nat) : Nat := leNat ((bs.drop off).take n)

/-- Byte `i` of a run, zero past its end. -/
def byteAt (bs : Bytes) (i : Nat) : Nat := ((bs[i]?).getD 0).toNat

/-- Exactly `n` bytes: cut, or filled with zeros. -/
def fitBytes (n : Nat) (bs : Bytes) : Bytes := bs.take n ++ List.replicate (n - bs.length) 0

/-- Replaces the bytes of `base` from `off` on by `new`, keeping its length. -/
def overlay (base : Bytes) (off : Nat) (new : Bytes) : Bytes :=
  (base.take off ++ new ++ base.drop (off + new.length)).take base.length

/-- Fields (width, value), lowest first, packed into one number. -/
def packBits : List (Nat × Nat) → Nat
  | [] => 0
  | (w, v) :: t => v % 2 ^ w + 2 ^ w * packBits t

/-- Bit `i` of a number. -/
def bitOf (v i : Nat) : Bool := v / 2 ^ i % 2 == 1

/-- Bits `[lo + w - 1 : lo]` of a number. -/
def bitsOf (v lo w : Nat) : Nat := v / 2 ^ lo % 2 ^ w

def setBit (v i : Nat) (b : Bool) : Nat :=
  let cleared := if bitOf v i then v - 2 ^ i else v
  if b then cleared + 2 ^ i else cleared

def natOf (b : Bool) : Nat := if b then 1 else 0

/-- Saturating increment. -/
def satInc (limit n : Nat) : Nat := if n < limit then n + 1 else n

def alignDown (a n : Nat) : Nat := a - a % n

/-- The two's complement reading of the low `w` bits. -/
def signedOf (w v : Nat) : Int :=
  let m := v % 2 ^ w
  if m < 2 ^ (w - 1) then (m : Int) else (m : Int) - (2 ^ w : Nat)

end Sys2Proof
end

