-- ==== Sys2Proof/Machine/Floats.lean ====
section
/-! DEFINITION. Binary floating point: decoding, rounding to nearest even, addition (R525, R539-R542, R591, R592). -/

namespace Sys2Proof.Machine

/-- A binary format: exponent and fraction bits. -/
structure Fmt where
  e : Nat
  m : Nat
deriving DecidableEq, Repr

def fp16 : Fmt := ⟨5, 10⟩
def bf16 : Fmt := ⟨8, 7⟩
def fp32 : Fmt := ⟨8, 23⟩
def fp64 : Fmt := ⟨11, 52⟩

namespace Fmt

def bias (f : Fmt) : Nat := 2 ^ (f.e - 1) - 1
def signBit (f : Fmt) : Nat := 2 ^ (f.e + f.m)
def infBits (f : Fmt) : Nat := (2 ^ f.e - 1) * 2 ^ f.m

/-- Canonical quiet NaN (R592). -/
def nanBits (f : Fmt) : Nat := f.infBits + 2 ^ (f.m - 1)

end Fmt

/-- A value: NaN, an infinity, or sign × mag × 2^exp. -/
inductive FVal where
  | nan
  | inf (neg : Bool)
  | fin (neg : Bool) (mag : Nat) (exp : Int)
deriving DecidableEq, Repr

/-- The value of a bit pattern. -/
def decodeFp (f : Fmt) (bits : Nat) : FVal :=
  let neg := bitOf bits (f.e + f.m)
  let ex := bitsOf bits f.m f.e
  let fr := bits % 2 ^ f.m
  if ex = 2 ^ f.e - 1 then (if fr = 0 then .inf neg else .nan)
  else if ex = 0 then .fin neg fr (1 - (f.bias : Int) - f.m)
  else .fin neg (2 ^ f.m + fr) ((ex : Int) - f.bias - f.m)

/-- Bits of a natural number. -/
def bitLength (n : Nat) : Nat := if n = 0 then 0 else Nat.log2 n + 1

/-- `n / 2^k` rounded to nearest, ties to even. -/
def shiftRne (n k : Nat) : Nat :=
  let q := n / 2 ^ k
  let r := n % 2 ^ k
  if 2 * r < 2 ^ k then q else if 2 * r > 2 ^ k then q + 1 else q + q % 2

/-- `mag × 2^exp` rounded to nearest even in a format, its sign given; overflow gives an infinity. -/
def roundFp (f : Fmt) (neg : Bool) (mag : Nat) (exp : Int) : Nat :=
  let s := if neg then f.signBit else 0
  if mag = 0 then s
  else
    let top := (bitLength mag : Int) - 1 + exp
    let q := max top (1 - (f.bias : Int)) - f.m
    let k := q - exp
    let mant := if k ≤ 0 then mag * 2 ^ (-k).toNat else shiftRne mag k.toNat
    let bits := (q + f.m + f.bias - 1).toNat * 2 ^ f.m + mant
    s + (if bits ≥ f.infBits then f.infBits else bits)

/-- The bits of a value in a format. -/
def encodeFp (f : Fmt) (v : FVal) : Nat :=
  match v with
  | .nan => f.nanBits
  | .inf neg => (if neg then f.signBit else 0) + f.infBits
  | .fin neg mag exp => roundFp f neg mag exp

/-- Exact sum of two values. An exact zero of unlike signs is positive. -/
def addVal (a b : FVal) : FVal :=
  match a, b with
  | .nan, _ | _, .nan => .nan
  | .inf x, .inf y => if x = y then .inf x else .nan
  | .inf x, _ => .inf x
  | _, .inf y => .inf y
  | .fin na ma ea, .fin nb mb eb =>
    let e := min ea eb
    let ia : Int := (ma * 2 ^ (ea - e).toNat : Nat)
    let ib : Int := (mb * 2 ^ (eb - e).toNat : Nat)
    let sum := (if na then -ia else ia) + (if nb then -ib else ib)
    if sum = 0 then .fin (na && nb) 0 e else .fin (decide (sum < 0)) sum.natAbs e

def negVal (a : FVal) : FVal :=
  match a with
  | .nan => .nan
  | .inf x => .inf (!x)
  | .fin n m e => .fin (!n) m e

/-- Addition in a format (R591, R592). -/
def addFp (f : Fmt) (a b : Nat) : Nat := encodeFp f (addVal (decodeFp f a) (decodeFp f b))

/-- `|a| ≤ b` for values that are not NaN. -/
def absLe (a b : FVal) : Bool :=
  match a, b with
  | .nan, _ | _, .nan => false
  | _, .inf _ => true
  | .inf _, _ => false
  | .fin _ ma ea, .fin _ mb eb =>
    let e := min ea eb
    decide (ma * 2 ^ (ea - e).toNat ≤ mb * 2 ^ (eb - e).toNat)

end Sys2Proof.Machine
end

