-- ==== Sys2Proof/Machine/Aes.lean ====
section
/-! DEFINITION. AES-256 of FIPS 197 and the modes the sealed cells run it in: XTS on 32-byte data units (R914, R915) and
GCM (R761). A block is sixteen bytes, first byte first. -/

namespace Sys2Proof.Machine

/-- A product in a binary field: `fuel` bits of `b`, lowest first, over the polynomial `poly` of degree `n`. -/
def fieldMul (n poly : Nat) : Nat → Nat → Nat → Nat
  | 0, _, _ => 0
  | fuel + 1, a, b =>
    let a' := if 2 * a < 2 ^ n then 2 * a else (2 * a) ^^^ poly
    (if b % 2 = 1 then a else 0) ^^^ fieldMul n poly fuel a' (b / 2)

/-! ### The cipher -/

/-- Products in the field of AES, x^8 + x^4 + x^3 + x + 1. -/
def byteMul (a b : Nat) : Nat := fieldMul 8 0x11B 8 a b

/-- The inverse of a byte, its 254th power; zero for zero. -/
def byteInv (a : Nat) : Nat :=
  let square := fun x => byteMul x x
  let run := (List.range 6).foldl (fun (x : Nat) _ => byteMul (square x) a) a
  square run

/-- SubBytes on one byte: its inverse, and the affine map. -/
def subByte (a : Nat) : Nat :=
  let v := byteInv a
  let turn := fun k => (v * 2 ^ k % 256) ||| (v / 2 ^ (8 - k))
  v ^^^ turn 1 ^^^ turn 2 ^^^ turn 3 ^^^ turn 4 ^^^ 0x63

/-- The 256 values of SubBytes as one number, that of byte `a` at bit 8a; `Laws/Aes.lean` has them equal to `subByte`. -/
def subTable : Nat :=
  0x16BB54B00F2D99416842E6BF0D89A18CDF2855CEE9871E9B948ED9691198F8E19E1DC186B95735610EF6034866B53E70 * 2 ^ 1664
    + 0x8A8BBD4B1F74DDE8C6B4A61C2E2578BA08AE7A65EAF4566CA94ED58D6D37C8E779E4959162ACD3C25C2406490A3A32E0 * 2 ^ 1280
    + 0xDB0B5EDE14B8EE4688902A22DC4F816073195D643D7EA7C41744975FEC130CCDD2F3FF1021DAB6BCF5389D928F40A351 * 2 ^ 896
    + 0xA89F3C507F02F94585334D43FBAAEFD0CF584C4A39BECB6A5BB1FC20ED00D153842FE329B3D63B52A05A6E1B1A2C8309 * 2 ^ 512
    + 0x75B227EBE28012079A059618C323C7041531D871F1E5A534CCF73F362693FDB7C072A49CAFA2D4ADF04759FA7DC982CA * 2 ^ 128
    + 0x76ABD7FE2B670130C56F6BF27B777C63

def sub (a : Nat) : Nat := subTable / 2 ^ (8 * (a % 256)) % 256

/-- Bytes of two blocks, or of a block and a key, added. -/
def xorBytes (a b : List Nat) : List Nat := (a.zip b).map fun p => p.1 ^^^ p.2

/-- One more word of the key schedule, from the eight before it, newest first. -/
def nextWord (i : Nat) (w : List (List Nat)) : List Nat :=
  let last := (w[0]?).getD []
  let mixed :=
    if i % 8 = 0 then xorBytes ((last.drop 1 ++ last.take 1).map sub) [2 ^ (i / 8 - 1) % 256, 0, 0, 0]
    else if i % 8 = 4 then last.map sub
    else last
  xorBytes ((w[7]?).getD []) mixed

/-- The sixty words of the key schedule, newest first. -/
def keyWords : Nat → Nat → List (List Nat) → List (List Nat)
  | 0, _, w => w
  | n + 1, i, w => keyWords n (i + 1) (nextWord i w :: w)

/-- Round keys of a 32-byte key, sixteen bytes each. -/
def roundKeys (key : List Nat) : List (List Nat) :=
  let first := ((List.range 8).map fun i => (key.drop (4 * i)).take 4).reverse
  let words := (keyWords 52 8 first).reverse
  (List.range 15).map fun r => ((words.drop (4 * r)).take 4).flatMap id

/-- SubBytes and ShiftRows. -/
def subShift (b : List Nat) : List Nat :=
  (List.range 16).map fun i => sub ((b[(i + 4 * (i % 4)) % 16]?).getD 0)

/-- MixColumns on one column. -/
def mixColumn (col : List Nat) : List Nat :=
  let at_ := fun i => (col[i % 4]?).getD 0
  (List.range 4).map fun i => byteMul 2 (at_ i) ^^^ byteMul 3 (at_ (i + 1)) ^^^ at_ (i + 2) ^^^ at_ (i + 3)

def mixColumns (b : List Nat) : List Nat := (List.range 4).flatMap fun i => mixColumn ((b.drop (4 * i)).take 4)

/-- AES-256 on one block, by round keys. -/
def cipherBlock (rk : List (List Nat)) (b : List Nat) : List Nat :=
  let at_ := fun i => (rk[i]?).getD []
  let s := (List.range 13).foldl (fun s i => xorBytes (mixColumns (subShift s)) (at_ (i + 1))) (xorBytes b (at_ 0))
  xorBytes (subShift s) (at_ 14)

/-- The `n` little-endian byte values of a number, and the number of a run of them. -/
def natBytes (n v : Nat) : List Nat := (List.range n).map fun i => v / 256 ^ i % 256

def bytesNat (b : List Nat) : Nat := b.foldr (fun x n => x + 256 * n) 0

/-- A 256-bit key as the byte string it is, first byte lowest. -/
def keyBytes (k : Nat) : List Nat := natBytes 32 k

/-! ### XTS (R914) -/

/-- The product by α of XTS: the tweak doubled in its field, first byte lowest. -/
def doubleTweak (t : List Nat) : List Nat := natBytes 16 (fieldMul 128 (2 ^ 128 + 0x87) 2 (bytesNat t) 2)

/-- One data unit of 32 bytes under a data key and a tweak key (R914, R915). -/
def xtsUnit (dataRk tweakRk : List (List Nat)) (tweak : Nat) (p : Bytes) : Bytes :=
  let t0 := cipherBlock tweakRk (natBytes 16 tweak)
  let block := fun (t : List Nat) (b : List Nat) => xorBytes (cipherBlock dataRk (xorBytes b t)) t
  let plain := (fitBytes 32 p).map (·.toNat)
  (block t0 (plain.take 16) ++ block (doubleTweak t0) (plain.drop 16)).map (BitVec.ofNat 8)

/-- A run of whole sectors from a tweak on, each sector's tweak its address (R914). -/
def xtsSectors (dataKey tweakKey tweak : Nat) (p : Bytes) : Bytes :=
  let k1 := roundKeys (keyBytes dataKey)
  let k2 := roundKeys (keyBytes tweakKey)
  (List.range (p.length / 32)).flatMap fun j => xtsUnit k1 k2 (tweak + 32 * j) ((p.drop (32 * j)).take 32)

/-! ### GCM (R761) -/

/-- The big-endian value of a block and back: GCM counts and multiplies with the first bit highest. -/
def blockNat (b : List Nat) : Nat := bytesNat b.reverse

def natBlock (v : Nat) : List Nat := (natBytes 16 v).reverse

/-- A product in the field of GHASH: the first bit of a block is the coefficient of x^0. -/
def ghashMul : Nat → Nat → Nat → Nat → Nat
  | 0, _, _, z => z
  | fuel + 1, x, v, z =>
    let z := if x / 2 ^ fuel % 2 = 1 then z ^^^ v else z
    let v := if v % 2 = 1 then (v / 2) ^^^ (0xE1 * 2 ^ 120) else v / 2
    ghashMul fuel x v z

/-- Blocks of sixteen bytes, the last filled with zeros. -/
def blocksOf (b : List Nat) : List (List Nat) :=
  (List.range ((b.length + 15) / 16)).map fun i =>
    let c := (b.drop (16 * i)).take 16
    c ++ List.replicate (16 - c.length) 0

/-- GHASH of associated data and ciphertext under a hash key. -/
def ghash (h : Nat) (aad text : List Nat) : Nat :=
  let lens := natBlock (8 * aad.length * 2 ^ 64 + 8 * text.length)
  (blocksOf aad ++ blocksOf text ++ [lens]).foldl (fun y b => ghashMul 128 (y ^^^ blockNat b) h 0) 0

/-- The key stream of GCM: `n` blocks from a counter on. -/
def counterStream (rk : List (List Nat)) (iv : List Nat) (from_ n : Nat) : List Nat :=
  (List.range n).flatMap fun i => cipherBlock rk (iv ++ (natBytes 4 (from_ + i)).reverse)

/-- AES-256-GCM with a 12-byte nonce: a run of bytes from the `from_`-th block of its message on, encrypted or decrypted. -/
def gcmText (key : Nat) (iv : List Nat) (from_ : Nat) (text : Bytes) : Bytes :=
  (xorBytes (text.map (·.toNat)) (counterStream (roundKeys (keyBytes key)) iv (2 + from_) ((text.length + 15) / 16))).map (BitVec.ofNat 8)

/-- The 16-byte tag of AES-256-GCM over associated data and ciphertext. -/
def gcmTag (key : Nat) (iv : List Nat) (aad text : Bytes) : Bytes :=
  let rk := roundKeys (keyBytes key)
  let h := blockNat (cipherBlock rk (List.replicate 16 0))
  let y := ghash h (aad.map (·.toNat)) (text.map (·.toNat))
  (xorBytes (natBlock y) (counterStream rk iv 1 1)).map (BitVec.ofNat 8)

end Sys2Proof.Machine
end

