-- ==== Sys2Proof/Machine/Sha384.lean ====
section
/-! DEFINITION. SHA-384 of FIPS 180-4, as the digests of chapters 12 and 21 use it. -/

namespace Sys2Proof.Machine

/-- The largest `r < 2^n + base` of the form base + bits with `r ^ k ≤ v`: an integer root, bit by bit. -/
def rootBits (k v : Nat) : Nat → Nat → Nat
  | 0, r => r
  | n + 1, r => rootBits k v n (if (r + 2 ^ n) ^ k ≤ v then r + 2 ^ n else r)

/-- The first 64 bits of the fraction of the k-th root of a small prime. -/
def rootFraction (k p : Nat) : Nat := rootBits k (p * 2 ^ (64 * k)) 70 0 % 2 ^ 64

/-- The first eighty primes. -/
def shaPrimes : List Nat := (List.range 410).filter fun n => decide (2 ≤ n) && (List.range 21).all fun d => d < 2 || n ≤ d || n % d ≠ 0

/-- Round constants: cube roots of the first eighty primes. -/
def shaK : List (BitVec 64) := shaPrimes.map fun p => BitVec.ofNat 64 (rootFraction 3 p)

/-- Initial hash of SHA-384: square roots of the ninth to sixteenth primes. -/
def sha384Init : List (BitVec 64) := ((shaPrimes.drop 8).take 8).map fun p => BitVec.ofNat 64 (rootFraction 2 p)

def bigSigma0 (x : BitVec 64) : BitVec 64 := x.rotateRight 28 ^^^ x.rotateRight 34 ^^^ x.rotateRight 39
def bigSigma1 (x : BitVec 64) : BitVec 64 := x.rotateRight 14 ^^^ x.rotateRight 18 ^^^ x.rotateRight 41
def smallSigma0 (x : BitVec 64) : BitVec 64 := x.rotateRight 1 ^^^ x.rotateRight 8 ^^^ (x >>> 7)
def smallSigma1 (x : BitVec 64) : BitVec 64 := x.rotateRight 19 ^^^ x.rotateRight 61 ^^^ (x >>> 6)

/-- The message schedule: `n` more words behind the last sixteen, newest first. -/
def shaSchedule : Nat → List (BitVec 64) → List (BitVec 64)
  | 0, w => w
  | n + 1, w =>
    let at_ := fun i => (w[i]?).getD 0
    shaSchedule n ((smallSigma1 (at_ 1) + at_ 6 + smallSigma0 (at_ 14) + at_ 15) :: w)

/-- One round on the eight working variables. -/
def shaRound (v : List (BitVec 64)) (kw : BitVec 64) : List (BitVec 64) :=
  match v with
  | [a, b, c, d, e, f, g, h] =>
    let t1 := h + bigSigma1 e + ((e &&& f) ^^^ (~~~e &&& g)) + kw
    let t2 := bigSigma0 a + ((a &&& b) ^^^ (a &&& c) ^^^ (b &&& c))
    [t1 + t2, a, b, c, d + t1, e, f, g]
  | _ => v

/-- Big-endian value of a byte run. -/
def beNat (bs : Bytes) : Nat := bs.foldl (fun n b => 256 * n + b.toNat) 0

/-- The `n` big-endian bytes of a value. -/
def toBE (n v : Nat) : Bytes := (toLE n v).reverse

/-- Hashes `n` blocks of 128 bytes. -/
def shaBlocks : Nat → List (BitVec 64) → Bytes → List (BitVec 64)
  | 0, h, _ => h
  | n + 1, h, m =>
    let words := (List.range 16).map fun i => BitVec.ofNat 64 (beNat ((m.drop (8 * i)).take 8))
    let w := (shaSchedule 64 words.reverse).reverse
    let v := (shaK.zip w).foldl (fun v p => shaRound v (p.1 + p.2)) h
    shaBlocks n ((h.zip v).map fun p => p.1 + p.2) (m.drop 128)

/-- SHA-384. -/
def sha384 (m : Bytes) : Bytes :=
  let pad := (128 - (m.length + 17) % 128) % 128
  let padded := m ++ [0x80] ++ List.replicate pad 0 ++ toBE 16 (8 * m.length)
  ((shaBlocks (padded.length / 128) sha384Init padded).take 6).flatMap fun x => toBE 8 x.toNat

end Sys2Proof.Machine
end

