-- ==== Sys2Proof/Machine/P384.lean ====
section
/-! DEFINITION. The curve P-384: ECDSA signatures (R554, R933, R937), the ECDH secret (R776), and HKDF-SHA-384 (R776, R929).
The curve's parameters are those of FIPS 186, which the spec names and does not restate. -/

namespace Sys2Proof.Machine

/-- The field prime. -/
def curveP : Nat := 2 ^ 384 - 2 ^ 128 - 2 ^ 96 + 2 ^ 32 - 1

/-- The coefficient b; that of x is −3. -/
def curveB : Nat :=
  0xB3312FA7E23EE7E4988E056BE3F82D19181D9C6EFE8141120314088F5013875AC656398D8A2ED19D2A85C8EDD3EC2AEF

/-- The order of the base point. -/
def curveN : Nat := 2 ^ 384 - 0x389CB27E0BC8D220A7E5F24DB74F58851313E695333AD68D

/-- A point: none is the one at infinity. -/
abbrev Point := Option (Nat × Nat)

/-- The base point. -/
def curveG : Point :=
  some (0xAA87CA22BE8B05378EB1C71EF320AD746E1D3B628BA79B9859F741E082542A385502F25DBF55296C3A545E3872760AB7,
        0x3617DE4A96262C6F5D9E98BF9292DC29F8F41DBD289A147CE9DA3113B5F0B8C00A60B1CE1D7E819D7A431D7C90EA0E5F)

/-- A power modulo `m`; `fuel` bits of the exponent, lowest first. -/
def powMod (m : Nat) : Nat → Nat → Nat → Nat
  | 0, _, _ => 1 % m
  | fuel + 1, a, e => (if e % 2 = 1 then a else 1) * powMod m fuel (a * a % m) (e / 2) % m

/-- The inverse modulo a prime of 384 bits. -/
def invMod (m a : Nat) : Nat := powMod m 384 (a % m) (m - 2)

/-- A point as a quotient: x ÷ z² and y ÷ z³; z = 0 is the one at infinity. -/
structure Ratio where
  x : Nat
  y : Nat
  z : Nat

def mulP (a b : Nat) : Nat := a * b % curveP

def subP (a b : Nat) : Nat := (a + curveP - b) % curveP

def Ratio.infinity : Ratio := ⟨1, 1, 0⟩

def Ratio.double (a : Ratio) : Ratio :=
  let zz := mulP a.z a.z
  let yy := mulP a.y a.y
  let slope := 3 * mulP (subP a.x zz) ((a.x + zz) % curveP) % curveP
  let m := 4 * mulP a.x yy % curveP
  let x := subP (mulP slope slope) (2 * m % curveP)
  ⟨x, subP (mulP slope (subP m x)) (8 * mulP yy yy % curveP), mulP (2 * a.y % curveP) a.z⟩

/-- Addition on the curve. -/
def Ratio.add (a b : Ratio) : Ratio :=
  if a.z = 0 then b
  else if b.z = 0 then a
  else
    let za := mulP a.z a.z
    let zb := mulP b.z b.z
    let u := mulP a.x zb
    let s := mulP a.y (mulP b.z zb)
    let h := subP (mulP b.x za) u
    let r := subP (mulP b.y (mulP a.z za)) s
    if h = 0 then (if r = 0 then a.double else .infinity)
    else
      let hh := mulP h h
      let cube := mulP h hh
      let v := mulP u hh
      let x := subP (mulP r r) ((cube + 2 * v) % curveP)
      ⟨x, subP (mulP r (subP v x)) (mulP s cube), mulP h (mulP a.z b.z)⟩

/-- A multiple of a point; `fuel` bits of the factor, lowest first. -/
def Ratio.mul : Nat → Nat → Ratio → Ratio
  | 0, _, _ => .infinity
  | fuel + 1, k, q =>
    let rest := Ratio.mul fuel (k / 2) q.double
    if k % 2 = 1 then q.add rest else rest

def Ratio.ofPoint (p : Point) : Ratio := match p with | some (x, y) => ⟨x, y, 1⟩ | none => .infinity

def Ratio.toPoint (a : Ratio) : Point :=
  if a.z = 0 then none
  else
    let w := invMod curveP a.z
    some (mulP a.x (mulP w w), mulP a.y (mulP w (mulP w w)))

/-- A multiple of a point by a factor of 384 bits. -/
def pointMul (k : Nat) (q : Point) : Point := ((Ratio.ofPoint q).mul 384 k).toPoint

/-- A point of the curve's equation, with coordinates below the prime. -/
def onCurve (x y : Nat) : Bool :=
  decide (x < curveP) && decide (y < curveP) && (y * y) % curveP == (x * x * x + (curveP - 3) * x + curveB) % curveP

/-- An uncompressed public key of 97 bytes. -/
def publicPoint (key : Bytes) : Point :=
  let x := beNat ((key.drop 1).take 48)
  let y := beNat ((key.drop 49).take 48)
  if key.length = 97 ∧ byteAt key 0 = 4 ∧ onCurve x y then some (x, y) else none

/-- The uncompressed form of a point. -/
def pointBytes (q : Point) : Bytes :=
  match q with
  | some (x, y) => 4 :: (toBE 48 x ++ toBE 48 y)
  | none => List.replicate 97 0

/-- A signature of 96 bytes, r and s, verifies over a digest of 48 bytes under a public key. -/
def ecdsaVerify (key digest sig : Bytes) : Bool :=
  let r := beNat (sig.take 48)
  let s := beNat ((sig.drop 48).take 48)
  match publicPoint key with
  | none => false
  | some q =>
    if r = 0 ∨ r ≥ curveN ∨ s = 0 ∨ s ≥ curveN then false
    else
      let w := invMod curveN s
      let sum := ((Ratio.ofPoint curveG).mul 384 (beNat digest * w % curveN)).add ((Ratio.ofPoint (some q)).mul 384 (r * w % curveN))
      match sum.toPoint with
      | some (x, _) => x % curveN == r
      | none => false

/-- The public key of a private key. -/
def publicKey (d : Nat) : Bytes := pointBytes (pointMul (1 + d % (curveN - 1)) curveG)

/-- The ECDH secret of a private key and a partner's public key: the shared point's first coordinate. -/
def sharedSecret (d : Nat) (key : Bytes) : Option Bytes :=
  (publicPoint key).bind fun q => (pointMul (1 + d % (curveN - 1)) (some q)).map fun x => toBE 48 x.1

/-! ### HKDF-SHA-384 of RFC 5869 -/

/-- HMAC with SHA-384. -/
def hmac384 (key m : Bytes) : Bytes :=
  let k := fitBytes 128 (if key.length > 128 then sha384 key else key)
  sha384 (k.map (· ^^^ 0x5C) ++ sha384 (k.map (· ^^^ 0x36) ++ m))

/-- The blocks of the expansion, numbered from `i`. -/
def hkdfBlocks (prk info : Bytes) : Nat → Nat → Bytes → Bytes
  | 0, _, _ => []
  | n + 1, i, last =>
    let t := hmac384 prk (last ++ info ++ toLE 1 i)
    t ++ hkdfBlocks prk info n (i + 1) t

/-- `n` bytes derived from a secret. -/
def hkdf384 (secret salt info : Bytes) (n : Nat) : Bytes :=
  (hkdfBlocks (hmac384 (if salt.isEmpty then List.replicate 48 0 else salt) secret) info ((n + 47) / 48) 1 []).take n

end Sys2Proof.Machine
end

