-- ==== Sys2Proof/Config.lean ====
section
/-! DEFINITION. What the implementation fixes and the free values: constants with no body, of which nothing can be proved. -/

namespace Sys2Proof.Config

/-- The n-th free value: what the spec leaves open after a command that goes on (an undefined datum, a random
draw, a key identity). DESIGN CHOICE: log entry 4. -/
opaque freeNat : Nat → Nat

/-- The n-th free byte: contents the spec does not give (data beats of an uncorrectable page, DRBG output). DESIGN CHOICE: log entry 4. -/
opaque freeByte : Nat → Byte

/-- The stride and the 256 code lengths that DRY gives a LEAF-L block: they depend on the block and the stepping alone
(R536), and the spec leaves them open. DESIGN CHOICE: log entry 19. -/
opaque leafCode : Bytes → Nat × List Nat

/-- Flits a port's receive buffer holds for each class (R770): the spec gives no size. DESIGN CHOICE: log entry 24. -/
opaque linkBuffer : Nat → Nat

/-- The base-die sensor that stands in an island, if one does (Table 20-2): the spec gives no numbering. DESIGN CHOICE: log entry 26. -/
opaque islandSensor : Nat → Option Nat

/-- How far, in mV, the reading of a rail in regulation may lie from its voltage (R890): the spec gives no band. DESIGN CHOICE:
log entry 72. -/
opaque regulationBand : Nat → Nat

/-- Whether a cluster cause (TRAP byte 1) stands for a fetch POISON or an aperture TRAP (R730): the Huanar H2 manual defines
the causes, the spec does not. DESIGN CHOICE: log entry 73. -/
opaque trapOfIsland : Nat → Bool

/-- Where a sector of the reserved area lies, as b × 2^32 + x (R915), by the reserved slabs of each board channel: the i-th record of
the device log's ring, the i-th sector of the FRESH bitmap, the i-th entry of a near channel's remap table. The spec gives no
places inside the area. DESIGN CHOICE: log entry 77. -/
opaque logPlace : List (Nat × Nat) → Nat → Nat
opaque bitmapPlace : List (Nat × Nat) → Nat → Nat
opaque remapPlace : List (Nat × Nat) → Nat → Nat → Nat

/-- How the reserved area lays out an entry of a remap table, by bank, row and spare (R417): the spec gives no layout. DESIGN
CHOICE: log entry 77. -/
opaque remapSector : Nat → Nat → Nat → Bytes

/-- SHA-384 of the warden ROM, measurement 1 of Table 19-5: the spec gives no value. DESIGN CHOICE: log entry 30. -/
opaque romDigest : Bytes

/-- SHA-384 of a firmware image, by its header, which holds the digest of its body (measurement 2). DESIGN CHOICE: log entry 30. -/
opaque imageDigest : Bytes → Bytes

end Sys2Proof.Config
end

