-- ==== Sys2Proof/Machine/State.lean ====
section
/-! DEFINITION. Everything the spec gives the block to remember, as plain data; every field's default is its value at reset. -/

namespace Sys2Proof.Machine

/-- Why the block stops. No command of the table has an effect the spec calls undefined, so no meaning raises one. -/
inductive Fault where
  /-- Raised by no command: kept so that the type is inhabited. Safe. -/
  | unreachable
deriving DecidableEq, Repr

/-- Why a command has no meaning here. -/
inductive Refusal where
  /-- A command whose meaning is not written: raised by the dispatcher only. Safe. -/
  | notModelled (mnemonic : String)
deriving DecidableEq, Repr

/-! ## Clocks and the timebase (chapter 02) -/

/-- The clock of one island, away from its nominal running state. -/
structure IslandClock where
  /-- TBASE at which the DPLL lost lock and the clock was gated; `none` while running (R184). -/
  gatedAt : Option Nat := none
  /-- The lock was not regained within 10 µs: stopped (R55, R949). -/
  stopped : Bool := false
  /-- Frequency set by ISLAND_CLOCK_SET in MHz; `none` is nominal (R172, R197). -/
  setMHz : Option Nat := none
  /-- Nanoseconds by which the island's TBASE follower trails the master (R47, R49; DESIGN CHOICE, log entry 34: it never
  leads, and an island whose clock never stood is level with the master). -/
  lag : Nat := 0
deriving DecidableEq, Repr

/-- The crossings into one island whose clock stands (R43, R44): what their receiving-side FIFOs hold, and what waits for
acknowledge in the senders. A transfer is the row of the table that sends it. -/
structure Crossing where
  /-- Transfers in the FIFO, oldest first, at most four (R43). -/
  fifo : List Instr := []
  /-- Transfers that a full FIFO holds back in their senders, oldest first (R44). -/
  sender : List Instr := []
deriving DecidableEq, Repr

structure Clocks where
  /-- The TBASE master, nanoseconds (R45): zero at a cold reset. -/
  tbase : BitVec 64 := 0
  /-- The warden DPLL has locked to CORE_REFCLK (R242). -/
  wardenLocked : Bool := false
  /-- The other islands whose DPLL has locked to its reference since the last cold reset or PERST_N (R36, Table 6-1). -/
  locked : Bank Unit := {}
  /-- By receiving island: transfers that wait while its clock stands (R43, R44). -/
  crossings : Bank Crossing := {}
  /-- By island number 0-184 (Table 1-3); an unlisted island runs at nominal, its follower level with the master. -/
  islands : Bank IslandClock := {}
deriving DecidableEq, Repr

/-! ## Pins, boot and flash (chapters 06, 22, 24) -/

inductive DeviceState where
  | cold | booting | unconfigured | service | lost
deriving DecidableEq, Repr

inductive ConfigSpace where
  /-- Not answering. -/
  | silent
  /-- Every request answered with Request Retry Status (R244). -/
  | rrs
  /-- Populated (step 10). -/
  | full
  /-- Only the PF (R253, R254). -/
  | pfOnly
deriving DecidableEq, Repr

/-- A firmware bank's image as the verification sees it (R252, R933, R960). -/
structure FwImage where
  /-- [31:24] major, [23:16] minor, [15:0] patch. -/
  version : Nat := 0x03020000
  /-- Kymal version, major × 256 + minor. -/
  kymal : Nat := 0x0302
  /-- Rollback number (R932-R934). -/
  rollback : Nat := 0
  /-- The image asks that the fuses advance when it is activated (R934). -/
  commitRollback : Bool := false
  /-- Digest and signature verify. -/
  valid : Bool := true
  /-- The 256 header bytes as staged (Table 21-6). -/
  header : Bytes := []
deriving DecidableEq, Repr

/-- A pending row-repair record (R256). -/
structure RepairRec where
  channel : Nat
  bank : Nat
  row : Nat
deriving DecidableEq, Repr

/-- What no reset alters but the operations that write flash and fuses (R231, Table 6-6). -/
structure Flash where
  /-- The 32-bit write count of the boot record: its two copies are written alternately, and the one last written, whose number is
  the count's low bit, is in force (chapter 24). -/
  recordWrites : BitVec 32 := 0
  /-- The boot epoch, 24 bits (R103). -/
  epoch : BitVec 24 := 0
  /-- The bank the boot record names (R252, R255). -/
  bankPtr : Nat := 0
  bank0 : FwImage := {}
  bank1 : FwImage := {}
  /-- Pending row-repair records, oldest first (at most 1,024, chapter 24). -/
  repairs : List RepairRec := []
  /-- Rollback counter fuses blown, 0-64 (R932). -/
  rollbackFuses : Nat := 0
  /-- The part is an engineering sample (R6, Table 0-2). -/
  sample : Bool := false
  /-- The part's serial number, in its fuses (R937). -/
  serial : Nat := 0
  /-- SHA-384 of the device identity public key, which the fuses determine (chapter 21). -/
  identity : Bytes := []
  /-- The public keys, uncompressed, whose SHA-384 is in fuses: of firmware (R933) and of debug tokens (R937). -/
  firmwareKey : Bytes := []
  debugKey : Bytes := []
deriving DecidableEq, Repr

structure Boot where
  /-- Pin PWR_OK (R234). -/
  pwrOk : Bool := true
  /-- Pin COLD_RST_N asserted (R238). -/
  coldRst : Bool := false
  /-- Pin PERST_N asserted (R241). -/
  perst : Bool := false
  device : DeviceState := .booting
  /-- BOOT.PROGRESS.step, 8 bits (Table 6-7). -/
  step : Nat := 0
  /-- BOOT.PROGRESS.fail_step, 8 bits. -/
  failStep : Nat := 0
  /-- BOOT.PROGRESS.last_reset, 2 bits: 0 power-up, 1 COLD_RST_N, 2 PERST_N. -/
  lastReset : Nat := 0
  /-- BOOT.PROGRESS.bank. -/
  bank : Nat := 0
  /-- BOOT.PROGRESS.fallback. -/
  fallback : Bool := false
  /-- BOOT.PROGRESS.lost_at_boot: LOST was entered at step 16. -/
  lostAtBoot : Bool := false
  /-- Highest step whose *cold* part has run since the cold reset (R240, R266). -/
  coldDone : Nat := 0
  config : ConfigSpace := .silent
  /-- The SMBus endpoint answers (step 4). -/
  smbusUp : Bool := false
  /-- The SPI outputs are in high impedance (R232). -/
  spiHiZ : Bool := false
  /-- GDDR7 devices in self-refresh (R262). -/
  selfRefresh : Bool := false
  /-- VIN_IVR fell below 1.60 V and the IVR phases stopped (R991). -/
  ivrStopped : Bool := false
deriving DecidableEq, Repr

/-! ## The Kymal mailbox (chapters 03, 04) -/

inductive WardenState where
  | running | activating | halted | restarting
deriving DecidableEq, Repr

/-- One of the last 64 commands taken from a queue (R83); no status while it still runs. -/
structure HistEntry where
  seq : BitVec 32
  opcode : Nat
  status : Option Nat
  /-- The detail of the final reply, which a duplicate's reply repeats (R83, R136; DEDUCED, log entry 61). -/
  detail : Nat := 0
deriving DecidableEq, Repr

/-- Sequence expectation and history of one queue, mailbox or the sideband (R82-R86). -/
structure SeqState where
  expected : Option (BitVec 32) := none
  history : List HistEntry := []
deriving DecidableEq, Repr

/-- One queue pair: two rings in host memory (R64, R72, R73). -/
structure QPair where
  cbase : Nat := 0
  rbase : Nat := 0
  cqLog : Nat := 4
  rqLog : Nat := 4
  vector : Nat := 0
  /-- Command tail as last rung. -/
  tail : Nat := 0
  /-- Command ring index the warden reads next. -/
  head : Nat := 0
  /-- Reply ring index written next. -/
  ridx : Nat := 0
  /-- Phase of the current pass. -/
  phase : Bool := true
  /-- Reply entries consumed up to this index. -/
  rhead : Nat := 0
  /-- Reply entries written and not consumed. -/
  unread : Nat := 0
  /-- Failed until QUEUE_RESET (R121, R123). -/
  failed : Bool := false
deriving DecidableEq, Repr

/-- Per-function Kymal registers (Table 3-5) and version. -/
structure KymFn where
  aqEnable : Bool := false
  /-- KYM.AQ_CBASE, bits [63:12] writable. -/
  aqCbase : Nat := 0
  aqRbase : Nat := 0
  cqLog : Nat := 4
  rqLog : Nat := 4
  vector : Nat := 0
  /-- KYM.URG_CMD, 128 bytes. -/
  urgCmd : Bytes := List.replicate 128 0
  /-- KYM.URG_RPLY, 64 bytes. -/
  urgRply : Bytes := List.replicate 64 0
  urgBusy : Bool := false
  urgDone : Bool := false
  urgOverrun : Bool := false
  /-- Version negotiated by HELLO; `none` while the gate is shut (R70, R154). -/
  version : Option Nat := none
deriving DecidableEq, Repr

/-- A reply entry before it is laid out (Table 3-2). -/
structure Reply where
  path : Path
  opcode : Nat
  status : Nat
  seq : BitVec 32
  final : Bool := true
  dup : Bool := false
  gap : Bool := false
  detail : Nat := 0
  gen : Nat := 0
  /-- Bytes 24-63. -/
  result : Bytes := []
  /-- The resource of the accepted command whose final reply this is, in transition until it is written (R90). -/
  owes : Option Nat := none
deriving DecidableEq, Repr

/-- How an accepted command ended. -/
structure Finish where
  status : Nat
  detail : Nat := 0
  result : Bytes := []
  /-- Data that follow the reply: the indirect buffer, or the rest of a sideband message (R161). -/
  data : Bytes := []
deriving DecidableEq, Repr

/-- An accepted command that owes its final reply (R90-R93). -/
structure Running where
  opcode : Nat
  cmd : KCmd
  /-- Resource reference of the primary resource. -/
  ref : Nat
  /-- The outcome, once the work has ended. -/
  outcome : Option Finish := none
  /-- Its function was reset: no reply, EV_CMD_ORPHANED (R127). -/
  orphan : Bool := false
  /-- A command of mode S that waits for a handshake before its one reply: not counted by R92 (R815). -/
  modeS : Bool := false
  /-- Its queue was reset since it was taken: the history it stood in is gone (R1033, R157). -/
  forgotten : Bool := false
deriving DecidableEq, Repr

structure Lease where
  ref : Nat
  /-- 0-127 function, 128 sideband. -/
  holder : Nat
  excl : Bool
deriving DecidableEq, Repr

/-- A LEASE_BREAK judged and not yet in effect (R109-R113). -/
structure Break where
  breaker : Nat
  take : Bool
  /-- Path and sequence of the breaking command, whose final reply is owed. -/
  path : Path
  seq : BitVec 32
deriving DecidableEq, Repr

structure Kym where
  warden : WardenState := .running
  /-- Lockstep mismatches since cold boot, and TBASE of the latest (Table 5-12). -/
  mismatches : Nat := 0
  mismatchAt : Nat := 0
  /-- The halt not yet reported was a lockstep mismatch (R63). -/
  mismatchPending : Bool := false
  /-- A restarted warden whose bank failed re-verification (R269). -/
  restartFailed : Bool := false
  /-- By function 0-127; unlisted functions stand at their reset values. -/
  fns : Bank KymFn := {}
  /-- By 4f + q. The admin pair is listed while aq_enable is 1. -/
  pairs : Bank QPair := {}
  /-- By intake position: 5f + q, 5f + 4, 640. -/
  seqs : Bank SeqState := {}
  /-- Intake positions whose doorbell was rung and not yet consumed (R76). -/
  rung : Bank Unit := {}
  /-- Position last served; `none` after a cold reset or PERST_N (R76). -/
  lastPos : Option Nat := none
  sidebandVersion : Option Nat := none
  /-- Sideband requests received and not yet taken: opcode and entry. -/
  sideband : List (Nat × KCmd) := []
  running : List Running := []
  /-- Final replies that wait for their pair to be reset or enabled (R157, R1033). -/
  heldReplies : List Reply := []
  leases : List Lease := []
  /-- Pending breaks by resource reference, oldest first: a holder being broken may itself break the others (R110). -/
  breaks : Bank (List Break) := {}
  /-- Function each resource is assigned to; unlisted: the PF (R159). -/
  assign : Bank Nat := {}
  /-- Count part, bits [39:0], of each generation counter; unlisted: 1 (R103). -/
  genCount : Bank Nat := {}
  /-- The epoch part the counters were set with (R103). -/
  genEpoch : BitVec 24 := 0
  /-- Bank of a judged FW_ACTIVATE that waits for its swap (R130). -/
  activating : Option Nat := none
deriving DecidableEq, Repr

/-! ## Standing orders, events and snapshots (chapter 05) -/

structure Order where
  armed : Bool := false
  /-- Entry bytes 24-55 as armed. -/
  params : Bytes := []
  /-- Parameters in force since the carrier's last evaluation (R187). -/
  inForce : Bytes := []
  triggered : Bool := false
  /-- Times triggered since armed, 32 bits. -/
  count : Nat := 0
  /-- Consecutive evaluations meeting the trigger, and the release, condition (R190). -/
  hot : Nat := 0
  cool : Nat := 0
  /-- Value at the last evaluation (R188). -/
  value : Nat := 0
  /-- SO_PATROL_RATE: TBASE since which the rate has stayed below the trigger. -/
  belowSince : Option Nat := none
deriving DecidableEq, Repr

/-- Where the warden routes an event (R204, R1031, R114, R127). -/
inductive Route where
  /-- To the function its unit is assigned to. -/
  | unit
  /-- To the function a resource is assigned to. -/
  | ref (r : Nat)
  /-- To one function. -/
  | fn (f : Nat)
  /-- To the device log only. -/
  | log
deriving DecidableEq, Repr

/-- An event, numbered and stamped (Table 5-4). -/
structure Event where
  code : Nat
  severity : Nat
  unit : Nat
  seq : Nat := 0
  stamp : Nat := 0
  detail : Nat := 0
  route : Route := .unit
  /-- Class, when not the high byte of the code. -/
  cls : Nat
deriving DecidableEq, Repr

/-- The first event lost since the last SPILLWAY, with what that record needs (R212, Table 5-8). -/
structure FirstLoss where
  cls : Nat
  code : Nat
  seq : Nat
  stamp : Nat
  maxSeverity : Nat
  lost : Nat
deriving DecidableEq, Repr

structure EvQueue where
  enabled : Bool := false
  log2 : Nat := 6
  vector : Nat := 0
  base : Nat := 0
  /-- Index the host reads next (EVQ.HEAD). -/
  head : Nat := 0
  /-- Index written next. -/
  idx : Nat := 0
  /-- Unconsumed records. -/
  held : Nat := 0
  phase : Bool := true
  /-- The vector was raised since the host last moved EVQ.HEAD (R208). -/
  raised : Bool := false
  first : Option FirstLoss := none
deriving DecidableEq, Repr

/-- The snapshot slot of a 32-bit path: register tag and high half (R220-R223). -/
structure Snapshot where
  reg : Nat
  high : BitVec 32
deriving DecidableEq, Repr

structure Events where
  /-- Next device sequence number, 48 bits (R201). -/
  nextSeq : Nat := 1
  /-- Events on the crossings into the warden island while its clock is gated, oldest first: not yet numbered (R44, R201). -/
  waiting : List Event := []
  /-- Numbered events not yet written by the warden, oldest first. -/
  held : List Event := []
  /-- Device-wide lost-counters by class and the first device-wide loss (R218, R247). -/
  deviceLost : Bank Nat := {}
  deviceFirst : Option FirstLoss := none
  /-- The device log, oldest first, at most 65,536 records (R217). -/
  log : List Event := []
  /-- Where in the log's ring the next record goes. -/
  logAt : Nat := 0
  /-- The log is open (step 13). -/
  logOpen : Bool := false
  /-- No board channel trained at this boot: there is no device log (R318). -/
  noLog : Bool := false
  /-- TBASE until which FAULT_N is held by the last FAILED or FATAL event (R198). -/
  faultUntil : Option Nat := none
  /-- Event queues by function. -/
  queues : Bank EvQueue := {}
  /-- Lost-counters by 32 × function + class (R211, R215). -/
  lost : Bank Nat := {}
  smbusSlot : Option Snapshot := none
  jtagSlot : Option Snapshot := none
  /-- By function: BAR0 time registers. -/
  bar0Slots : Bank Snapshot := {}
  /-- SBR.ACCESS_STS.torn. -/
  sbrTorn : Bool := false
  /-- TORN of the JTAG path, captured with its next high-half read (Table 5-10). -/
  jtagTorn : Bool := false
  /-- TIME.STS.torn by function. -/
  timeTorn : Bank Unit := {}
deriving DecidableEq, Repr

/-! ## The host interface (chapter 19) -/

structure MsixVector where
  addr : Nat := 0
  data : Nat := 0
  /-- Masked at reset, as PCI Express has it (PRESUMED, log entry 10). -/
  masked : Bool := true
deriving DecidableEq, Repr

/-- A BAR2.MAPn register (Table 19-4), 64 bits. -/
structure Bar2Map where
  polder : Nat := 0
  granule : Nat := 0
  status : Nat := 0
  w : Bool := false
  enable : Bool := false
  /-- Low half of a 4-byte write pair, held until the high half is written. -/
  lowHeld : Option Nat := none
deriving DecidableEq, Repr

/-- Host-side state of one function. -/
structure HostFn where
  msixEnable : Bool := false
  functionMask : Bool := false
  vectors : Bank MsixVector := {}
  /-- Pending Bit Array: listed vectors are pending. -/
  pba : Bank Unit := {}
  bar2 : Bank Bar2Map := {}
  /-- BAR2.STS.unmapped. -/
  unmapped : Bool := false
  atsEnable : Bool := false
  priEnable : Bool := false
  /-- PRI stopped by a Response Failure until software enables it again (R453). -/
  priStopped : Bool := false
  /-- Outstanding Page Request Allocation, as software programs it. -/
  priAllocation : Nat := 0
deriving DecidableEq, Repr

/-- A Selective IDE Stream (R860, R861, R931). -/
inductive IdeState where
  | idle | secure | insecure
deriving DecidableEq, Repr

structure IdeStream where
  state : IdeState := .idle
  /-- Function the association belongs to. -/
  fn : Nat := 0
  /-- Keys loaded in the HOST sealed cells (R931), by direction and substream number. -/
  keys : Bank Nat := {}
deriving DecidableEq, Repr

/-- The PCIe link as it trained (R841): the generation, 6 for 64 GT/s down to 1 for 2.5 GT/s, and the lanes. -/
structure PcieLink where
  gen : Nat := 6
  lanes : Nat := 16
deriving DecidableEq, Repr

structure HostIf where
  /-- The link, at its full rate and width until the platform offers no better (DESIGN CHOICE, log entry 78). -/
  pcie : PcieLink := {}
  /-- By function 0-127. -/
  fns : Bank HostFn := {}
  vfEnable : Bool := false
  /-- VFs enabled: 1 to this number (R868). -/
  vfs : Nat := 0
  ide : Bank IdeStream := {}
  /-- A secured SPDM session on the PF's DOE mailbox (R860, R928). -/
  spdmSession : Bool := false
  /-- A session's keys are agreed and its FINISH has not come. -/
  spdmHandshake : Bool := false
  /-- SMBus target address (R864). -/
  smbusAddr : Nat := 0x4C
  /-- Last offset written by a Block Write (R866). -/
  sbrOffset : Nat := 0
  /-- JTAG TAP: instruction register holds IDCODE after a TAP reset. -/
  tapReset : Bool := true
  /-- An instruction that drives the boundary cells is selected. -/
  boundaryScan : Bool := false
deriving DecidableEq, Repr

/-- A response on the DOE mailbox. -/
inductive DoeAnswer where
  | spdm (r : SpdmRequest) (content : Bytes)
  /-- ERROR: the request needs randomness there is none of (R910). -/
  | unspecified
  | unsupported
  | versionMismatch
  /-- A field of the request out of range, or a session that is not there. -/
  | invalid
  /-- KP_ACK of a KEY_PROG. -/
  | keyProg (stream : Nat) (ok : Bool)
deriving DecidableEq, Repr

/-- What the block sends out of itself: the model's own trace of the outside, newest first (DESIGN CHOICE, log entry 6). -/
inductive Out where
  /-- A reply entry written to a reply ring, the urgent mailbox or the sideband. -/
  | reply (path : Path) (index : Nat) (entry : Bytes)
  /-- Data that follow a reply: an indirect buffer written, or the rest of a sideband message. -/
  | replyData (path : Path) (data : Bytes)
  /-- An event record written to a function's queue at an index. -/
  | event (fn : Nat) (index : Nat) (record : Bytes)
  /-- An MSI-X message. -/
  | msix (fn vector : Nat)
  /-- A configuration request answered: Request Retry Status, or data. -/
  | config (retry : Bool) (data : Nat)
  /-- Data a register read returned (BAR0, sideband, JTAG), with its TORN bit where the path carries it. -/
  | read (data : Nat) (torn : Bool)
  /-- Data a memory read returned to its requester; poisoned or not. -/
  | data (bytes : Bytes) (poison : Bool)
  /-- Bytes written to host memory. -/
  | hostWrite (addr : Nat) (bytes : Bytes)
  /-- A read request sent to host memory: function, PASID if any, address, length. -/
  | hostRead (fn : Nat) (pasid : Option Nat) (addr len : Nat)
  /-- ATS Translation Request: function, PASID, address. -/
  | atsRequest (fn pasid addr : Nat)
  /-- Page Request: function, PASID, address, group index, R, W. -/
  | pageRequest (fn pasid addr group : Nat) (r w : Bool)
  /-- PRI Stop Marker. -/
  | stopMarker (fn pasid : Nat)
  /-- ATS Invalidate Completion. -/
  | invalidateComplete (fn tag : Nat)
  /-- A frame sent on the die-to-die stream, control or fetch lanes of a cluster port. -/
  | d2d (cluster kind : Nat) (data : Bytes)
  /-- The walking-ones pattern of 256 beats driven on a lost port's data and sideband wires (R716). -/
  | walkingOnes (cluster : Nat)
  /-- A message on a compute die's power sideband: 32 bytes and their CRC. -/
  | psb (die : Nat) (data : Bytes)
  /-- A flit given to the line of a link port, 68 bytes, or bytes 16-25 of a training frame (kind 4). -/
  | flit (port kind : Nat) (data : Bytes)
  /-- A superframe on the four lanes of a link port: PAM4 levels, lane by lane. -/
  | lanes (port : Nat) (levels : List (List Nat))
  /-- PRBS31 on the four lanes of a link port, from the start of QUALIFY (R786). -/
  | prbs31 (port : Nat)
  /-- The device identity chain and a signed ephemeral public key, sent in IDENTIFY (R775). -/
  | identify (port : Nat) (ephemeral : Bytes)
  /-- A transaction queued on a link port for the cohort. -/
  | link (port : Nat) (fields : List Nat)
  /-- The COHORT_SYNC pin driven. -/
  | syncPulse
  /-- A JTAG or boundary-scan data register shifted out. -/
  | jtag (data : Nat) (bits : Nat)
  /-- An SPDM or IDE_KM response object: an answer to a request with its content, or an ERROR. -/
  | doe (r : DoeAnswer)
  /-- Walking patterns driven on hybrid-bond wires: each stack face, each compute-die face. -/
  | bondPattern (stackWires dieWires : Nat)
  /-- What a JTAG TESTRUN answers: status, detail, result. -/
  | testRun (status detail : Nat) (result : Bytes)
deriving DecidableEq, Repr

/-- It leaves through the host island: over PCIe or the SMBus endpoint (R55). -/
def Out.viaHost : Out → Bool
  | .reply .. | .replyData .. | .event .. | .msix .. | .config .. | .read .. | .hostWrite .. | .hostRead ..
  | .atsRequest .. | .pageRequest .. | .stopMarker .. | .invalidateComplete .. | .doe .. => true
  | .data .. | .d2d .. | .walkingOnes .. | .psb .. | .flit .. | .lanes .. | .prbs31 .. | .identify .. | .link .. | .syncPulse | .jtag .. | .bondPattern .. | .testRun .. => false

/-! ## Near and board memory, the page code, patrol and remapping (chapters 07, 09) -/

/-- A conversion of a polder's strength or key, page by page (R411, R956-R958). -/
structure Conversion where
  newStrength : Nat
  newKey : Nat
  /-- Polder pages below it are converted. -/
  boundary : Nat := 0
  /-- It is a rekey, not a restrength. -/
  rekey : Bool := false
deriving DecidableEq, Repr

/-- A polder (Table 7-3). -/
structure Polder where
  /-- 0 near, 1 board. -/
  tier : Nat := 0
  /-- 0 STACK, 1 CHAN16, 2 ALL128, 3 HASH128, 4 B12. -/
  interleave : Nat := 0
  /-- 0 256 B, 1 4 KiB, 2 2 MiB. -/
  granule : Nat := 0
  /-- 0-3 for t = 8, 16, 32, 64. -/
  strength : Nat := 0
  /-- FRESH, not STRICT. -/
  fresh : Bool := false
  /-- Key slot 0-63. -/
  key : Nat := 0
  /-- Size in 256 MiB granules. -/
  size : Nat := 0
  stack : Nat := 0
  sluice : Option Nat := none
  /-- Basin quota in KiB (R336). -/
  quota : Nat := 0
  /-- Placement table (R289): position piece to channel × 0x1000 + stripe or slab. -/
  place : Bank Nat := {}
  conv : Option Conversion := none
deriving DecidableEq, Repr

structure Sluice where
  tier : Nat := 0
  /-- Average rate in MB/s; 0 while not configured. -/
  rate : Nat := 0
  /-- Burst in KiB. -/
  burst : Nat := 0
  /-- Credit in bytes (R297); may be negative. -/
  credit : Int := 0
  /-- Bytes charged by channel in the running 10 µs (R299). -/
  used : Bank Nat := {}
  /-- Credit share of each channel since the last redivision. -/
  share : Bank Int := {}
  /-- A bound request waited in the running window. -/
  waited : Bool := false
  /-- Shortfall windows (R304). -/
  shortfall : Nat := 0
deriving DecidableEq, Repr

/-- What the DRAM holds of a written page beside its data: the code's state. -/
structure Page where
  /-- Codeword positions whose stored symbol is wrong (Table 9-3), rising. -/
  errs : List Nat := []
  /-- Strength code of its tail. -/
  strength : Nat := 0
  /-- The 512 bytes of its tail as written (Table 9-2); a stored symbol that has gone wrong since is one of `errs`. -/
  tail : Bytes := []
deriving DecidableEq, Repr

/-- A merge-buffer entry (R380-R390). -/
structure MergeEntry where
  /-- DPA div 4096. -/
  page : Nat
  /-- TBASE at which it opened. -/
  opened : Nat
  /-- Bytes by offset in the page. -/
  bytes : Bank Byte := {}
  /-- Codeword positions a scrub corrects when it commits (R378). -/
  scrub : List Nat := []
deriving DecidableEq, Repr

/-- A write that waits to enter its channel (R44, R315): a page, or less of one. -/
structure HeldWrite where
  dpa : Nat
  bytes : Bytes
  /-- Sectors of the page that arrive poisoned (R345, R390). -/
  bad : List Nat := []
deriving DecidableEq, Repr

/-- A row that has had errors (R413). -/
structure RowTrack where
  bank : Nat
  row : Nat
  count : Nat
  /-- TBASE of its first and of its latest counted error. -/
  first : Nat
  last : Nat
deriving DecidableEq, Repr

/-- A remap-table entry (R415). -/
structure Remap where
  bank : Nat
  row : Nat
  spare : Nat
deriving DecidableEq, Repr

/-- Rate-limited event state of one code in one channel or slice: the second last reported, occurrences since. -/
structure SecondState where
  last : Option Nat := none
  since : Nat := 0
deriving DecidableEq, Repr

structure Patrol where
  /-- PATROL_CONFIG period in hours; 24 from boot (R408). -/
  period : Nat := 24
  sluice : Option Nat := none
  /-- Next page of the walk (DPA div 4096), none between passes. -/
  next : Nat := 0
  started : Nat := 0
  /-- TBASE at which the last page was read: pages are spaced (R408). -/
  last : Nat := 0
  corrected : Nat := 0
  checkOnly : Nat := 0
  uncorrectable : Nat := 0
  /-- Pages skipped for an open entry, revisited at the end of the pass (R405). -/
  skipped : List Nat := []
  /-- Pages of the reserved area read in this pass, on a board channel. -/
  area : Nat := 0
deriving DecidableEq, Repr

/-- One near (0-127) or board (128 + b) channel. -/
structure Channel where
  entries : List MergeEntry := []
  /-- Poison list: sectors (DPA div 32) on a near channel, pages (DPA div 4096) on a board channel (R313, R390). -/
  poison : List Nat := []
  corrected : Nat := 0
  checkOnly : Nat := 0
  uncorrectable : Nat := 0
  crcRetries : Nat := 0
  correctedEv : SecondState := {}
  checkOnlyEv : SecondState := {}
  /-- Second of the last EV_MEM_UNCORRECTABLE of a page (R401). -/
  uncorrEv : Bank Nat := {}
  /-- TBASE of the corrected pages of the last hour (SO_PATROL_RATE). -/
  correctedAt : List Nat := []
  patrol : Patrol := {}
  /-- At most 256, least recently counted first (R413). -/
  rows : List RowTrack := []
  remaps : List Remap := []
  /-- Exhaustion already reported: cause × 32 + bank (R416). -/
  exhausted : List Nat := []
  /-- Bitmask of stripes or slabs in use. -/
  used : Nat := 0
  /-- Trained data rate in Gb/s of a board channel; 0 untrained (R286, R287). -/
  rate : Nat := 0
  /-- Device temperature of a board channel in °C, and its refresh divisor (R308). -/
  deviceTj : Nat := 0
  refreshDiv : Nat := 1
  /-- Row refreshes done. -/
  refreshes : Nat := 0
  /-- Requests that wait at the channel, oldest first (R297, R298, R315). -/
  waiting : List Instr := []
  /-- The sluice whose request was served last, where sluices wait (R298). -/
  turn : Option Nat := none
  /-- Writes on their way to the channel while it is stopped or its island's clock stands, oldest first. -/
  held : List HeldWrite := []
  /-- Pages of a board channel whose read failed all retries and is not yet completed (R312). -/
  failedReads : List Nat := []
  /-- Row activations counted in the microsecond `actsAt` of TBASE while SO_STACK_THERMAL is triggered (R309). -/
  acts : Nat := 0
  actsAt : Nat := 0
deriving DecidableEq, Repr

structure Stack where
  /-- Four sensors, 0.1 °C. -/
  sensors : List Nat := [0, 0, 0, 0]
  failed : Bool := false
  /-- TBASE of the last management readout answered (R323). -/
  lastReadout : Nat := 0
deriving DecidableEq, Repr

structure Memory where
  /-- Plaintext bytes by DPA: near and board pages that are written, and the scratchpad window. An unlisted byte is zero. -/
  cells : List Host.Cell := []
  /-- Written pages by DPA div 4096; an unlisted page holds the unwritten mark (R243, R371). -/
  pages : Bank Page := {}
  /-- FRESH valid bits by DPA div 4096 (R395). -/
  valid : Bank Unit := {}
  /-- Page locks by DPA div 4096 (R403). -/
  locks : Bank Unit := {}
  polders : Bank Polder := {}
  sluices : Bank Sluice := {}
  channels : Bank Channel := {}
  nearStacks : Bank Stack := {}
  /-- Remap tables kept in the reserved area by near channel (R417). -/
  remapCopy : Bank (List Remap) := {}
  /-- Board channels that trained this boot (R286, R316). -/
  trained : List Nat := []
  /-- Reserved slabs that each board channel holds (R316). -/
  reserved : Bank Nat := {}
  /-- What the reserved area holds, as stored: 32 bytes of ciphertext by b × 2^32 + x, board channel and sector offset (R915). -/
  area : Bank Bytes := {}
deriving DecidableEq, Repr


/-! ## The Basin (chapter 08) -/

/-- A cached 128-byte line. -/
structure Line where
  /-- DPA div 128. -/
  tag : Nat
  way : Nat
  polder : Nat
  dirty : Bool
  data : Bytes
  /-- Poisoned 8-byte words, 0-15 (R358). -/
  poison : List Nat := []
deriving DecidableEq, Repr

/-- One Basin slice. -/
structure Slice where
  /-- Quarters in scratchpad mode, 4 bits (R325): none at step 11. -/
  scratch : Nat := 0
  /-- Caddy slot each scratchpad quarter is assigned to. -/
  assigned : Bank Nat := {}
  lines : List Line := []
  /-- Pseudo-LRU tree bits by set, 15 bits each (R339). -/
  plru : Bank Nat := {}
  /-- Poisoned words of the scratchpad, DPA div 8 (R358). -/
  badWords : List Nat := []
  corrected : Nat := 0
  checkOnly : Nat := 0
  uncorrectable : Nat := 0
  correctedEv : SecondState := {}
  /-- Set walks of BASIN_FLUSH completed since boot (Table 8-2). -/
  walks : Nat := 0
deriving DecidableEq, Repr


/-! ## Service states and tests (chapters 22, 23) -/

inductive UnitState where
  | inService | draining | outOfService | underTest | returning
deriving DecidableEq, Repr

/-- A test result held for a unit (Table 23-3). -/
structure TestResult where
  verdict : Nat
  test : Nat
  failCount : Nat
  signature : Nat
  expected : Nat
  stamp : Nat
deriving DecidableEq, Repr

structure Service where
  /-- By unit identifier; unlisted: IN_SERVICE. -/
  states : Bank UnitState := {}
  /-- Latest test result by unit (R973, R977). -/
  results : Bank TestResult := {}
  /-- Test running, by the unit its command named: test code and TBASE at its start. -/
  testing : Bank (Nat × Nat) := {}
  /-- Rows repaired by memory BIST since the last cold reset or PERST_N, by unit (R973). -/
  repaired : Bank Nat := {}
  /-- By draining channel: the stripe or slab whose invalidation is under way (R953). -/
  moving : Bank Nat := {}
deriving DecidableEq, Repr


/-! ## The sealed island (chapter 21) -/

structure Sealed where
  /-- Loaded key slots 0-63: the data key in the low 256 bits, the tweak key in the high 256 (R911). -/
  slots : Bank Nat := {}
  /-- The entropy source failed three start-up runs, until the next reset of the sealed island (R910). -/
  entropyFailed : Bool := false
  /-- The 384-bit reserved seed in its retention latch: drawn at step 7 of a cold boot, kept until the next cold reset (R916). -/
  seed : Option Nat := none
  /-- The reserved key, once derived: the data key in the low 256 bits, the tweak key in the high 256 (R917). -/
  reservedKey : Option Nat := none
  /-- The outstanding debug nonce and TBASE at its challenge (R936). -/
  nonce : Option (Bytes × Nat) := none
  /-- Unlock attempts since the cold reset (Table 19-5). -/
  attempts : Nat := 0
  /-- Scope of the debug unlock in force (R938). -/
  unlocked : Option Nat := none
  /-- Sealed-island resets since the last EV_SEAL_RESET, the detectors tripped, the slots loaded at the first of them and
  its TBASE: latched in the always-on domain (R927, Table 21-4). -/
  resets : Nat := 0
  detectors : Nat := 0
  loadedAtFirst : Nat := 0
  firstAt : Nat := 0
deriving DecidableEq, Repr



/-! ## Address spaces and translation (chapter 10) -/

/-- An address space (R420). -/
structure Space where
  fn : Nat
  pasid : Nat
  /-- ACCESS_COUNT_SET: counting, and its threshold. -/
  counting : Bool := false
  threshold : Nat := 0
deriving DecidableEq, Repr

/-- What a translation reaches. -/
inductive Target where
  /-- Host memory, at this translated address. -/
  | host (hpa : Nat)
  /-- A polder, at this offset. -/
  | polder (index offset : Nat)
  /-- An outbound window, at this offset (R812). -/
  | window (index offset : Nat)
deriving DecidableEq, Repr

/-- A translation entry (Table 10-1). -/
structure XEntry where
  ast : Nat
  /-- DVA div 4096 of the first page of the run. -/
  page : Nat
  /-- 0 4 KiB, 1 2 MiB, 2 1 GiB. -/
  size : Nat := 0
  /-- Pages in the run, 1-512. -/
  run : Nat := 1
  r : Bool
  w : Bool
  a : Bool := false
  key : Nat := 0
  target : Target
  /-- DPA of the first page; 0 for a host entry. -/
  dpa : Nat := 0
deriving DecidableEq, Repr

/-- A page that a descriptor or job touches, with the right it needs: 0 R, 1 W, 2 A. -/
structure Need where
  /-- 0 source, 1 destination, 2 reference or score table. -/
  side : Nat
  page : Nat
  right : Nat
  /-- First byte, in tile order, that lies on the page. -/
  first : Nat
deriving DecidableEq, Repr

/-- What a parked channel waits for (R447-R449, R454). -/
inductive ParkKind where
  /-- A PRG Response, by its group index. -/
  | page (group : Nat)
  /-- A TRANSLATE_FILL, by request id. -/
  | request (id : Nat)
  /-- A free place in the Outstanding Page Request Allocation. -/
  | allocation
deriving DecidableEq, Repr

/-- The translation record of a descriptor, job or inbound request: it travels with it to dispatch. -/
structure XJob where
  /-- 0 pump, 1 gather, 2 Infuser, 3 inbound window, 4 sequencer reducer operation. -/
  requester : Nat
  /-- Engine in the invalidation broadcast: pump 0-31, gather 32-39, Infuser 40-47; 48 for the others. -/
  engine : Nat
  unit : Nat
  channel : Nat := 0
  fn : Nat
  ast : Nat
  mayFault : Bool := false
  /-- Pages needed, in tile order. -/
  need : List Need
  got : List XEntry := []
  /-- Pages that ended unmapped or failed, with their cause (Table 10-3). -/
  fails : List (Nat × Nat) := []
  /-- Pages asked for and not answered. -/
  asked : List Nat := []
  /-- Pages whose fault was answered and whose translation is repeated (R450). -/
  repeated : List Nat := []
  parked : Option (Nat × ParkKind) := none
  /-- Re-marked by an invalidation (R471, R472). -/
  remark : Bool := false
  /-- Its transfer is dispatched and not completed: acknowledgements wait for it (R471). -/
  busy : Bool := false
deriving DecidableEq, Repr

/-- An outstanding ATS Translation Request (R438, R444). -/
structure AtsReq where
  ast : Nat
  page : Nat
  count : Nat
  /-- An invalidation overlaps it: its completion is discarded (R474). -/
  discard : Bool := false
deriving DecidableEq, Repr

/-- An outstanding translation or fault request to the driver (R439, R448, R449). -/
structure DrvReq where
  id : Nat
  ast : Nat
  page : Nat
  /-- Rights needed. -/
  write : Bool
  reduce : Bool
  /-- EV_FAULT_REQUEST: the parked job it belongs to. -/
  fault : Option Nat := none
  hostPage : Bool := false
  discard : Bool := false
deriving DecidableEq, Repr

/-- An outstanding Page Request (R447, R454). -/
structure PageReq where
  group : Nat
  fn : Nat
  page : Nat
  job : Nat
deriving DecidableEq, Repr

/-- What an invalidation drops. -/
inductive InvalScope where
  /-- DVA pages of one AST, first and end. -/
  | range (ast lo hi : Nat)
  | tag (ast : Nat)
  /-- Host entries of one function and PASID over a page range. -/
  | host (fn pasid lo hi : Nat)
  /-- Every host entry of a function (R858). -/
  | function (fn : Nat)
  /-- Device entries into a polder at or above an offset. -/
  | polder (index above : Nat)
  /-- Device entries into a polder that cover a DPA range (R476). -/
  | piece (dpa len : Nat)
  | window (n : Nat)
deriving DecidableEq, Repr

/-- Why: a running command on a resource, a host request, or a step of a drain or return. -/
inductive InvalCause where
  | command (opcode ref : Nat)
  | ats (fn tag : Nat)
  | atsDisabled (fn : Nat)
  | move (polder index : Nat)
  /-- A command that a warden restart interrupted: nobody waits for its end (R149). -/
  | interrupted
deriving DecidableEq, Repr

/-- An invalidation at the handshake of Table 10-6. -/
structure Inval where
  scope : InvalScope
  cause : InvalCause
  /-- Engines that have not acknowledged, 0-47. -/
  waiting : List Nat := List.range 48
  /-- Engines whose queues were re-marked already. -/
  marked : List Nat := []
  remarked : Nat := 0
deriving DecidableEq, Repr

/-- An access counter (R465). -/
structure HotCount where
  ast : Nat
  /-- DVA div 2 MiB. -/
  region : Nat
  count : Nat
  reported : Bool := false
deriving DecidableEq, Repr

/-- An aperture slot of a cluster (R463, R464). -/
structure ApertureSlot where
  polder : Nat
  offset : Nat
  len : Nat
  r : Bool
  w : Bool
  a : Bool
deriving DecidableEq, Repr

structure Xlat where
  /-- By AST. -/
  spaces : Bank Space := {}
  /-- The shared cache, most recently used first, at most 32,768. -/
  shared : List XEntry := []
  /-- Local caches by pump engine, at most 2,048 each. -/
  caches : Bank (List XEntry) := {}
  /-- Translation records by number. -/
  jobs : Bank XJob := {}
  nextJob : Nat := 0
  ats : List AtsReq := []
  drv : List DrvReq := []
  /-- Next request id, 32 bits. -/
  nextId : Nat := 0
  pages : List PageReq := []
  /-- Next Page Request Group index, 9 bits. -/
  nextGroup : Nat := 0
  invals : List Inval := []
  /-- Access counters, most recently used first, at most 4,096. -/
  hot : List HotCount := []
  /-- Aperture slots by 16 × cluster + slot. -/
  apertures : Bank ApertureSlot := {}
deriving DecidableEq, Repr


/-! ## Pumps (chapter 11) -/

/-- The sequencer operation that a unit's work belongs to. -/
structure SeqTag where
  seq : Nat
  op : Nat
  /-- Program id: what an earlier program issued reports to nobody. -/
  program : Nat := 0
deriving DecidableEq, Repr

/-- A read of host memory or of an outbound window that a transfer waits for: first byte of the tile, length. -/
structure Piece where
  tile : Nat
  len : Nat
  /-- It is a write to an outbound window, not a read. -/
  write : Bool := false
deriving DecidableEq, Repr

/-- A run of a tile: first tile byte, address, length. -/
structure Seg where
  tile : Nat
  addr : Nat
  len : Nat
deriving DecidableEq, Repr

/-- Tile bytes on their way out of an engine, and the bytes of the reference beside them. -/
structure Outgoing where
  seg : Seg
  data : Bytes
  ref : Bytes := []
  /-- Turns of 64 bytes that it still takes (R479). -/
  turns : Nat := 1
deriving DecidableEq, Repr

/-- A descriptor a channel has read (R433, R494). -/
structure PDesc where
  /-- Ring index, or issue index on a program channel. -/
  index : Nat
  raw : Bytes
  /-- Its translation record; none where nothing is translated. -/
  job : Option Nat := none
  /-- It cannot run: cause, first failing address, kind. -/
  fail : Option (Nat × Nat × Nat) := none
  dispatched : Bool := false
  /-- Blocks of memory still to read, in tile order; tile bytes of the reference from 2^40 on. -/
  reads : List Seg := []
  /-- What is gathered and still to write or send. -/
  writes : List Outgoing := []
  /-- Pieces still awaited. -/
  pieces : List Piece := []
  /-- Runs of bytes gathered so far, by tile offset; those of the reference from 2^40 on. -/
  data : Bank Bytes := {}
  moved : Nat := 0
  quiet : Nat := 0
  completed : Bool := false
  tag : Option SeqTag := none
deriving DecidableEq, Repr

/-- The halt record (R514, Table 11-6). -/
structure HaltRec where
  cause : Nat
  index : Nat
  addr : Nat
  kind : Nat
deriving DecidableEq, Repr

inductive ChanKind where
  | closed
  | host
  /-- Assigned to the caddy of a directory slot. -/
  | program (caddy : Nat)
deriving DecidableEq, Repr

structure PumpChan where
  kind : ChanKind := .closed
  fn : Nat := 0
  ast : Nat := 0
  fault : Bool := false
  base : Nat := 0
  log2 : Nat := 4
  vector : Nat := 0
  head : Nat := 0
  tail : Nat := 0
  /-- Ring index read next; next issue index of a program channel. -/
  next : Nat := 0
  descs : List PDesc := []
  /-- Translation record of the ring page being read. -/
  ringJob : Option Nat := none
  halt : Option HaltRec := none
  /-- Completion words not yet written: ring index, word, interrupt, translation record. -/
  words : List (Nat × Nat × Bool × Nat) := []
  /-- CHANNEL_CLOSE judged; descriptors it discarded. -/
  closing : Option Nat := none
deriving DecidableEq, Repr

structure PumpEng where
  /-- Channel served last (R479). -/
  turn : Nat := 15
  completed : Nat := 0
  quiet : Nat := 0
deriving DecidableEq, Repr

structure Pumps where
  /-- By 16 × engine + channel. -/
  chans : Bank PumpChan := {}
  engines : Bank PumpEng := {}
deriving DecidableEq, Repr


/-! ## The Infuser and caddies (chapter 12) -/

/-- Who issued an Infuser job. -/
inductive JobOwner where
  /-- The warden, for CADDY_INFUSE of a caddy: section and first output chunk of the part. -/
  | infuse (caddy sec part : Nat)
  /-- The warden, for a CONTEXT_MOVE into this destination polder. -/
  | context (ref : Nat)
  | seq (tag : SeqTag)
deriving DecidableEq, Repr

structure InfJob where
  raw : Bytes
  owner : JobOwner
  /-- Caddy of the issuing program. -/
  caddy : Nat := 0
  job : Option Nat := none
  started : Bool := false
  /-- Output bytes, and the status of Table 12-9, once it runs. -/
  out : Bytes := []
  status : Nat := 0
deriving DecidableEq, Repr

structure InfUnit where
  /-- Accepted jobs, oldest first, at most 16; the first runs once started. -/
  jobs : List InfJob := []
  inBytes : Nat := 0
  outBytes : Nat := 0
deriving DecidableEq, Repr

/-- A section of a caddy's container (Table 12-6). -/
structure Section where
  type : Nat
  format : Nat
  offset : Nat
  packed : Nat
  infused : Nat
  digest : Bytes
deriving DecidableEq, Repr

/-- What a bound caddy holds (R566). -/
structure Binding where
  clusters : List Nat
  seqs : List Nat
  chans : List Nat
  quarters : List Nat
  works : List Nat
  /-- Holder of the work polders' leases. -/
  binder : Nat
deriving DecidableEq, Repr

structure Caddy where
  /-- 1 STAGED, 2 RESIDENT, 3 BOUND, 4 BOUND with a program running. -/
  state : Nat := 1
  polder : Nat := 0
  offset : Nat := 0
  len : Nat := 0
  version : Nat := 0
  signed : Bool := false
  /-- SHA-384 of the signer's public key (R555). -/
  signer : Bytes := []
  /-- Manifest hash recorded at staging. -/
  hash : Bytes := []
  sections : List Section := []
  /-- Resource declaration and records, as read from the manifest. -/
  manifest : Bytes := []
  header : Bytes := []
  /-- Home polder and offset of the near region. -/
  home : Option (Nat × Nat) := none
  /-- Parts of the running infusion not yet complete, and its first failure: digest event cause, section, chunk. -/
  waiting : List (Nat × Nat) := []
  failure : Option (Nat × Nat × Nat) := none
  written : Nat := 0
  /-- SHA-384 of each infused chunk, by 65,536 × section + chunk. -/
  digests : Bank Bytes := {}
  bound : Option Binding := none
  /-- Argument polder of the latest PROGRAM_START. -/
  argument : Option Nat := none
  /-- Program id and envelope of the running program. -/
  program : Nat := 0
  envelope : Nat := 0
deriving DecidableEq, Repr

structure Infuser where
  units : Bank InfUnit := {}
  /-- By directory slot; an unlisted slot is ABSENT. -/
  caddies : Bank Caddy := {}
  /-- Jobs that wait for a unit with fewer than 16, oldest first. -/
  queue : List InfJob := []
deriving DecidableEq, Repr


/-! ## Reducers and gather engines (chapter 13) -/

structure Reducer where
  applied : Nat := 0
  failed : Nat := 0
  ordered : Nat := 0
  /-- By sector (DPA div 32): second last reported and failures since (R589). -/
  errors : Bank SecondState := {}
deriving DecidableEq, Repr

/-- A job on a lane (R600-R619). -/
structure GatherJob where
  raw : Bytes
  tag : SeqTag
  /-- TBASE at which it was accepted. -/
  accepted : Option Nat := none
  /-- Caddy of the issuing program. -/
  caddy : Nat := 0
  job : Option Nat := none
  /-- Scores read, by block; the mask: 0 fetch, 1 far, 2 weak. -/
  mask : List Nat := []
  /-- The mask is fixed and every page translated. -/
  masked : Bool := false
  /-- Every slot is delivered as POISON (R615). -/
  allPoison : Bool := false
  /-- It delivers no further slot. -/
  ended : Bool := false
  /-- Next slot to deliver; TBASE of the releases of slots not yet delivered. -/
  slot : Nat := 0
  releases : List Nat := []
  status : Nat := 0
  firstFail : Nat := 0
  late : Nat := 0
  poison : Nat := 0
deriving DecidableEq, Repr

structure Lane where
  /-- Running job first, then up to four queued. -/
  jobs : List GatherJob := []
deriving DecidableEq, Repr

structure GatherEng where
  slots : Nat := 0
  skipped : Nat := 0
  late : Nat := 0
  /-- Bytes of skipped blocks. -/
  avoided : Nat := 0
deriving DecidableEq, Repr

structure Gather where
  reducers : Bank Reducer := {}
  engines : Bank GatherEng := {}
  /-- By 64 × engine + lane. -/
  lanes : Bank Lane := {}
deriving DecidableEq, Repr


/-! ## Stream sequencers (chapters 14, 15) -/

/-- A run of bytes: address kind, address, length. -/
structure Span where
  kind : Nat
  addr : Nat
  len : Nat
deriving DecidableEq, Repr

/-- The work of an outstanding operation that the sequencer itself carries. -/
inductive OpWork where
  /-- In a unit: a pump descriptor, gather job or Infuser job. -/
  | unit
  /-- A posted store of bytes. -/
  | store (kind addr : Nat) (data : Bytes)
  /-- A reducer operation: kind, address, AST, type, elements, operand, ORDERED; its translation record; acknowledged
  with a result. -/
  | red (kind addr ast type count : Nat) (data : Bytes) (ordered : Bool) (job : Option Nat) (ack : Option Bool)
  /-- STRM.SEND: cluster, unit, scratch address of the next block, blocks left as read at issue, paced. -/
  | send (cluster unit src : Nat) (blocks : List Bytes) (paced : Bool)
  /-- STRM.RECV: cluster, unit, scratch address, blocks left. -/
  | recv (cluster unit addr left : Nat)
deriving DecidableEq, Repr

/-- A trap: cause, unit status, address, unit involved (Table 14-6). -/
structure Trap where
  cause : Nat
  status : Nat := 0
  addr : Nat := 0
  unit : Nat := 0
deriving DecidableEq, Repr

/-- How an operation ended in its unit, on its way to the sequencer. -/
structure OpDone where
  /-- Completion word or record, none for an operation without one. -/
  record : Bytes := []
  trap : Option Trap := none
deriving DecidableEq, Repr

/-- An operation that a sequencer has issued and that has not completed. -/
structure SeqOp where
  id : Nat
  /-- Class of Table 15-5. -/
  cls : Nat
  /-- Instruction index that issued it. -/
  index : Nat
  counter : Option Nat := none
  /-- Scratch address of the completion word or record. -/
  scratch : Nat := 0
  /-- Tokens it uses. -/
  tokens : Nat := 0
  reads : List Span := []
  writes : List Span := []
  work : OpWork := .unit
  done : Option OpDone := none
deriving DecidableEq, Repr

/-- What a blocking instruction in progress waits for. -/
inductive SeqWait where
  | load (kind addr size : Nat) (signed pair : Bool) (reg : Nat)
  | token (n : Nat)
  | signal (j v : Nat)
  | slot (k : Nat)
  /-- Operations by id (R693). -/
  | fence (ids : List Nat)
  | finish
deriving DecidableEq, Repr

inductive RunState where
  | idle
  /-- Admitted; its start time has not come. -/
  | armed
  | running
  | trapped
  | stopped
deriving DecidableEq, Repr

/-- A register whose new value is not yet sure to be read (R668): the value before, cycles left. -/
structure Fresh where
  old : BitVec 64
  left : Nat
  index : Nat
deriving DecidableEq, Repr

/-- What a PROGRAM_START sets a sequencer up with, until its start time (R632, R634, Table 14-1). -/
structure StartRec where
  /-- Kind 2 address of the argument, or 0. -/
  argument : Nat
  count : Nat
  entry : Nat
  /-- Start instruction, debug flag and slot length of the entry. -/
  pc : Nat
  debug : Bool
  slotLen : Nat
deriving DecidableEq, Repr

structure Sequencer where
  /-- s1-s31; s0 reads zero (R625). -/
  regs : Bank (BitVec 64) := {}
  /-- The instruction store: unlisted words are zero (R628). -/
  store : Bank (BitVec 64) := {}
  /-- Local scratch, 64 KiB; an unlisted byte is zero. -/
  scratch : List Host.Cell := []
  /-- Uncorrectable scratch words. -/
  badWords : List Nat := []
  counters : Bank Nat := {}
  pc : Nat := 0
  state : RunState := .idle
  wait : Option SeqWait := none
  /-- Caddy slot it is bound to. -/
  caddy : Option Nat := none
  rank : Nat := 0
  program : Nat := 0
  debug : Bool := false
  startAt : Nat := 0
  /-- The run that its start time begins. -/
  start : Option StartRec := none
  slotLen : Nat := 0
  /-- Slot length from the next boundary. -/
  nextLen : Nat := 0
  /-- Boundaries passed since slot 0. -/
  slots : Nat := 0
  late : Nat := 0
  held : Nat := 0
  inUse : Nat := 0
  /-- TBASE at which the token wait in progress began, and token wait time in nanoseconds. -/
  waitFrom : Nat := 0
  waited : Nat := 0
  hazards : Nat := 0
  /-- Instruction index × 8 + rule of hazards already reported in this run. -/
  reported : List Nat := []
  /-- Instruction index that the hazard detector holds (R655). -/
  hold : Option Nat := none
  /-- Translation record of a kind 0 RED that has not issued. -/
  redJob : Option Nat := none
  ops : List SeqOp := []
  nextOp : Nat := 0
  fresh : Bank Fresh := {}
  /-- PROGRAM_STOP takes it at its next boundary. -/
  stopping : Bool := false
  /-- It completed its end instruction. -/
  ended : Bool := false
deriving DecidableEq, Repr

/-- A request at the power manager that waits (R643). -/
structure TokenReq where
  seq : Nat
  n : Nat
deriving DecidableEq, Repr

/-- A signal post between two sequencers on its way (R638-R640). -/
structure Post where
  src : Nat
  dst : Nat
  counter : Nat
  value : Nat
deriving DecidableEq, Repr

structure Programs where
  seqs : Bank Sequencer := {}
  /-- Waiting TOK.ACQ requests, oldest first. -/
  queue : List TokenReq := []
  /-- Posts on their way, in the order of issue. -/
  posts : List Post := []
  /-- Next program id. -/
  nextProgram : Nat := 1
  /-- Token waits since cold boot (Table 4-14). -/
  tokenWaits : Nat := 0
  /-- Programs whose first wait since the last shrink was reported (R196). -/
  waitReported : List Nat := []
deriving DecidableEq, Repr


/-! ## Die to die (chapter 16) -/

/-- A base-die endpoint of a stream unit. -/
inductive Endpoint where
  /-- 16 × engine + channel. -/
  | pump (chan : Nat)
  /-- 64 × engine + lane. -/
  | gather (lane : Nat)
  | seq (n : Nat)
deriving DecidableEq, Repr

/-- A sequenced group to a cluster (Table 16-2). -/
structure Group where
  seq : Nat := 0
  type : Nat
  unit : Nat := 0
  mark0 : Nat := 0
  mark1 : Nat := 0
  last : Bool := false
  /-- Data of the halves that carry any; a marked half holds the wires (R711). -/
  data : Bytes := []
deriving DecidableEq, Repr

/-- An aperture request a cluster has outstanding (R726). -/
structure ApReq where
  tag : Nat
  op : Nat
  slot : Nat
  size : Nat
  type : Nat
  offset : Nat
  data : Bytes := []
  /-- Its tag was outstanding when it arrived (R726). -/
  reused : Bool := false
  /-- Data of a 128-byte write still to come in one more group. -/
  more : Bool := false
  /-- A reducer operation that passed the island's check and goes to its reducer. -/
  passed : Bool := false
  /-- Status and data of its answer, once known. -/
  answer : Option (Nat × Bytes) := none
deriving DecidableEq, Repr

/-- One direction of a sequenced path: sender and receiver counters. -/
structure LinkEnd where
  /-- Next seq sent. -/
  txSeq : Nat := 0
  unacked : List Group := []
  /-- Next seq expected. -/
  rxSeq : Nat := 0
  /-- A nak was sent and the expected group has not come (R713). -/
  nakSent : Bool := false
  /-- Consecutive CRC failures of the expected group. -/
  fails : Nat := 0
  /-- The next fetch response carries a nak. -/
  nakDue : Bool := false
deriving DecidableEq, Repr

structure ClusterPort where
  /-- By 2 × stream unit + direction. -/
  bindings : Bank Endpoint := {}
  stream : LinkEnd := {}
  fetch : LinkEnd := {}
  /-- Groups that wait for credit or for a place in the replay buffer, oldest first. -/
  txq : List Group := []
  /-- By unit 0-8: latest credit_total received, groups sent. -/
  credit : Bank Nat := {}
  sent : Bank Nat := {}
  /-- By unit 0-8: groups freed, the credit_total sent. -/
  freed : Bank Nat := {}
  /-- Units whose total has changed since it was last sent. -/
  due : List Nat := []
  /-- Unit served last (R723). -/
  rr : Nat := 0
  requests : List ApReq := []
  /-- CTRL messages accepted and not yet served, oldest first. -/
  ctrl : List Bytes := []
  /-- Received halves of a direction-1 unit that its endpoint has not taken. -/
  inbox : Bank (List Bytes) := {}
  discarded : Nat := 0
  retries : Nat := 0
  /-- Traps that the island has reported already and whose TRAP message has not come: fetch POISON, aperture TRAP (R730). -/
  reported : Nat := 0
  /-- The dead-wire record (R719). -/
  dead : Bool := false
  /-- Levels of the data wires on the last beat (R711). -/
  levels : Bytes := List.replicate 16 0
  caddy : Option Nat := none
  /-- Cluster slot in its caddy. -/
  slot : Nat := 0
  /-- A grant is in force (R741), and the sequencer that took its tokens. -/
  grant : Option Nat := none
deriving DecidableEq, Repr

/-- A temperature sensor. -/
structure Sensor where
  /-- 0.1 °C. -/
  value : Int := 0
  /-- Loops since it last gave a reading; above three it is absent (R880). -/
  missed : Nat := 4
deriving DecidableEq, Repr

structure Die where
  /-- Clock limit in percent in force in STATE; 100 for none. -/
  clockPct : Nat := 100
  ready : Bool := false
  identity : Nat := 0
  /-- IDENTITY received and checked. -/
  checked : Bool := false
  /-- TBASE at DRST_N release. -/
  released : Nat := 0
  /-- Cluster powers in 10 mW, by cluster of the die. -/
  powers : Bank Nat := {}
  /-- Sensors 0-15. -/
  sensors : Bank Sensor := {}
  /-- Grants in use, bitmap. -/
  grants : Nat := 0
  psbErrors : Nat := 0
  dtherm : Bool := false
deriving DecidableEq, Repr

structure D2d where
  clusters : Bank ClusterPort := {}
  dies : Bank Die := {}
deriving DecidableEq, Repr


/-! ## Chip links (chapter 17) -/

/-- A sequenced flit sent and not acknowledged (R768). -/
structure SentFlit where
  seq : Nat
  /-- 1 DATA, 2 TAG. -/
  kind : Nat
  /-- As first sent (R765): ciphertext of a DATA flit. -/
  payload : Bytes
  replays : Nat := 0
deriving DecidableEq, Repr

/-- The keys and salts of a link's two directions (R776). -/
structure LinkKeys where
  txKey : Nat := 0
  rxKey : Nat := 0
  txSalt : Bytes := []
  rxSalt : Bytes := []
deriving DecidableEq, Repr

/-- A flit received: its 68 bytes, and whether an uncorrectable codeword covers any of its bits (R766). -/
structure RxFlit where
  bytes : Bytes
  lost : Bool := false
deriving DecidableEq, Repr

/-- What a port that is not serving is doing. -/
inductive PortWork where
  /-- PORT_TRAIN or UNIT_RETURN: the opcode of the command that waits. -/
  | train (opcode : Nat)
  | qualify
  /-- Under SO_LINK_RETRAIN: cause, lane, TBASE at which it left ACTIVE, requests ended failed, codewords. -/
  | retrain (cause lane since failed codewords : Nat)
deriving DecidableEq, Repr

structure LinkPort where
  /-- Table 17-2. -/
  state : Nat := 0
  work : Option PortWork := none
  /-- Lanes on which training frames of the partner were seen, and whose receiver and partner report done: bitmaps. -/
  seen : Nat := 0
  adapted : Nat := 0
  /-- Partner's member, 0xFF if unknown; SHA-384 of its identity public key; its manifest. -/
  member : Nat := 0xFF
  identity : Bytes := []
  manifest : Bytes := []
  /-- The keys of the link, once agreed (R776, R777), and the ephemeral private key until then (R775). -/
  keys : Option LinkKeys := none
  ephemeral : Option Nat := none
  discarded : Nat := 0
  refused : Nat := 0
  /-- TBASE of the retrains, and of the exits from ACTIVE, of the last hour. -/
  retrains : List Nat := []
  exits : List Nat := []
  txSeq : Nat := 0
  unacked : List SentFlit := []
  rxSeq : Nat := 0
  nakSent : Bool := false
  /-- TBASE of the last flit accepted, and of the last advance of ack_seq. -/
  acceptedAt : Nat := 0
  ackedAt : Nat := 0
  /-- Chunks of transactions that wait: class, 63 bytes. -/
  txq : List (Nat × Bytes) := []
  /-- By class: credit total received, flits sent, flits freed. -/
  credit : Bank Nat := {}
  sent : Bank Nat := {}
  freed : Bank Nat := {}
  /-- Segment being sent: number, DATA flits. -/
  segment : Nat := 0
  segCount : Nat := 0
  /-- Ciphertext of the segment being sent. -/
  segText : Bytes := []
  /-- Segment being received: number, ciphertext payloads held until its tag verifies (R764). -/
  rxSegment : Nat := 0
  rxHeld : List Bytes := []
  /-- By class: the start of a transaction whose rest has not arrived. -/
  rxPart : Bank Bytes := {}
  /-- Transactions passed on and not yet served: class, bytes. -/
  arrived : List (Nat × Bytes) := []
  corrected : Nat := 0
  checkOnly : Nat := 0
  uncorrectable : Nat := 0
  replays : Nat := 0
  /-- TBASE of the uncorrectable codewords of the last 1 ms. -/
  uncorrAt : List Nat := []
  /-- Held MARGIN results by lane; the scan running: lane, TBASE at its start. -/
  margins : Bank Bytes := {}
  scanning : Option (Nat × Nat) := none
  /-- Lanes whose PRBS31 checker locked: bitmap; TBASE at which the last of them locked. -/
  locked : Nat := 0
  lockedAt : Option Nat := none
  /-- Flits given to the line and not yet sent in a superframe, oldest first. -/
  line : List Bytes := []
  /-- Flits of the superframes received, not yet heard. -/
  rxq : List RxFlit := []
  /-- The four lanes, sending and receiving (R754-R758). -/
  txLanes : List LinkLane := []
  rxLanes : List LinkLane := []
deriving DecidableEq, Repr

structure Links where
  ports : Bank LinkPort := {}
  /-- Port mask by trunk. -/
  trunks : Bank Nat := {}
  /-- Identity of the partner of each trunk, once a listed port was ACTIVE (R798). -/
  partners : Bank Bytes := {}
  /-- Quadrants whose reference was absent at the last cold boot (R251). -/
  noRef : List Nat := []
deriving DecidableEq, Repr


/-! ## Cohorts (chapter 18) -/

structure OutWindow where
  member : Nat := 0
  remote : Nat := 0
  /-- Port, or a trunk's lowest port. -/
  port : Nat := 0
  r : Bool := false
  w : Bool := false
  a : Bool := false
  base : Nat := 0
  len : Nat := 0
deriving DecidableEq, Repr

structure InWindow where
  /-- Permitted source member, 0xFF for any. -/
  member : Nat := 0xFF
  ast : Nat := 0
  r : Bool := false
  w : Bool := false
  a : Bool := false
  base : Nat := 0
  len : Nat := 0
deriving DecidableEq, Repr

/-- Whom a remote access belongs to. -/
inductive RemoteUser where
  /-- 16 × engine + channel, descriptor index, tile byte, first DVA. -/
  | pump (chan index tile dva : Nat)
  /-- Sequencer, operation id. -/
  | red (seq op : Nat)
  /-- A gather engine or Infuser unit, by unit: its data come with its own command (DESIGN CHOICE, log entry 7). -/
  | unit (u : Nat)
deriving DecidableEq, Repr

/-- A REQ sent and not completed. -/
structure RemoteReq where
  port : Nat
  tag : Nat
  op : Nat
  len : Nat
  user : RemoteUser
deriving DecidableEq, Repr

/-- A REQ that waits for one of the 256 tags of its port (R772): its bytes but for the tag. -/
structure RemoteSend where
  port : Nat
  op : Nat
  len : Nat
  bytes : Bytes
  user : RemoteUser
deriving DecidableEq, Repr

/-- A REQ transaction received (Table 18-3). -/
structure RemoteOp where
  op : Nat
  tag : Nat
  src : Nat
  relayed : Bool := false
  dst : Nat
  /-- Bytes, or elements and type of a REDUCE. -/
  count : Nat
  type : Nat := 0
  window : Nat
  offset : Nat
  epoch : Nat
  data : Bytes := []
deriving DecidableEq, Repr

/-- A REQ that passed the completer's checks and waits for its translation (R819). -/
structure InboundReq where
  port : Nat
  req : RemoteOp
  /-- Its DVA, fixed when it passed the window's checks. -/
  dva : Nat
  job : Nat
deriving DecidableEq, Repr

/-- A REQ forwarded to another member: its completion returns on the port it came from (R797). -/
structure Relayed where
  outPort : Nat
  tag : Nat
  src : Nat
  inPort : Nat
deriving DecidableEq, Repr

/-- An outstanding COHORT_CONFIG on the sideband (R810). -/
structure Pieces where
  bytes : Bytes
  member : Nat
  size : Nat
deriving DecidableEq, Repr

/-- Time exchanges of one port (R828-R830). -/
structure PortTime where
  number : Nat := 0
  /-- t1 of the request outstanding. -/
  sentAt : Option Nat := none
  /-- Offset and delay, doubled, of the last 16 exchanges, newest first. -/
  exchanges : List (Int × Int) := []
  /-- EV_TIME_DISAGREE was raised, and TBASE since which the estimate stays within the tolerance. -/
  reported : Bool := false
  within : Option Nat := none
deriving DecidableEq, Repr

structure Cohort where
  member : Nat := 0xFF
  size : Nat := 0
  blob : Bytes := []
  compat : Bytes := []
  pieces : Option Pieces := none
  epoch : BitVec 64 := 0
  outWin : Bank OutWindow := {}
  inWin : Bank InWindow := {}
  leader : Nat := 0xFF
  leaderPort : Nat := 0
  tolerance : Nat := 1000
  steering : Bool := false
  /-- Rate correction in 0.01 ppm (R832). -/
  correction : Int := 0
  estimate : Int := 0
  /-- TBASE of the last COHORT_SYNC edge. -/
  lastEdge : Option Nat := none
  times : Bank PortTime := {}
  /-- Time error accumulated by steering below 1 ns, in units of 10^-8 ns. -/
  residue : Int := 0
  nakEpoch : Bank SecondState := {}
  reqs : List RemoteReq := []
  waiting : List RemoteSend := []
  inbound : List InboundReq := []
  relayed : List Relayed := []
deriving DecidableEq, Repr


/-! ## Power and thermal management (chapter 20) -/

/-- A Tj as a control loop formed it: none where the source has no reading, and whether a sensor of it was left out. -/
structure TjView where
  tj : Option Nat := none
  absent : Bool := true
deriving DecidableEq, Repr

structure Power where
  /-- Loops since the last boot, and TBASE at the end of the latest. -/
  loops : Nat := 0
  loopAt : Nat := 0
  base : Bank Sensor := {}
  /-- Loops since each compute die sent SENSORS (R881). -/
  silent : Bank Nat := {}
  /-- Tj of each stack and compute die as the latest completed loop formed it (R879, R898). -/
  stackTjs : Bank TjView := {}
  dieTjs : Bank TjView := {}
  /-- Loops since each stack's sensors were read out (R880). -/
  unread : Bank Nat := {}
  /-- Powers of the last 100 loops in mW, newest first: the 549 records of Table 20-7, package, VIN_IVR input (R885). -/
  history : List (List Nat) := []
  /-- Energy of each record since the last boot, in units of 0.01 µJ. -/
  energy : List Nat := []
  /-- IVR phases that tripped. -/
  tripped : List Nat := []
  /-- Rail voltages in mV: VCD_TA of dies 0-3, then VB_SLICE, VB_LOGIC, VB_MEM, VB_LINK as 4-7; unlisted: nominal. -/
  rails : Bank Nat := {}
  /-- Output of each rail's phases in mV, regulated so that its lowest sense point reads the rail's voltage (R737); rails as
  `phaseRail` numbers them; unlisted: the rail's voltage. -/
  outputs : Bank Nat := {}
  /-- Latest readings of the sense points in mV: six on each compute die, one on each of the base-die rails 4-7 (R736). -/
  sense : Bank Nat := {}
  /-- Island clocks in force in MHz; unlisted: nominal. -/
  clocks : Bank Nat := {}
  /-- THERM_ALERT_N asserted, and the conditions of Table 20-5. -/
  alert : Bool := false
  conditions : Nat := 0
  /-- Comparators that hold THERM_TRIP_N, until PWR_OK falls (R894). -/
  trip : List Nat := []
  /-- Reduction built up by SO_POOL_LIMIT (R194). -/
  reduction : Nat := 0
  /-- SO_POOL_LIMIT was released: the reduction steps down (R194). -/
  recovering : Bool := false
deriving DecidableEq, Repr

/-! ## The whole block -/

structure State where
  /-- Commands waiting, first in first out. -/
  pending : List Instr := []
  /-- Index of the next free value of `Config`: the model's own field (DESIGN CHOICE, log entry 4). -/
  freeCtr : Nat := 0
  /-- What was sent out, newest first: the model's own field (DESIGN CHOICE, log entry 6). -/
  out : List Out := []
  /-- What waits in the host island while its clock stands, newest first: writes and requests to the host not yet sent (R55). -/
  heldOut : List Out := []
  boot : Boot := {}
  flash : Flash := {}
  clk : Clocks := {}
  kym : Kym := {}
  /-- Standing orders by code × 0x10000 + target unit. -/
  orders : Bank Order := {}
  ev : Events := {}
  host : HostIf := {}
  mem : Memory := {}
  basin : Bank Slice := {}
  svc : Service := {}
  sealed : Sealed := {}
  xlat : Xlat := {}
  pumps : Pumps := {}
  inf : Infuser := {}
  gath : Gather := {}
  prog : Programs := {}
  d2d : D2d := {}
  link : Links := {}
  cohort : Cohort := {}
  power : Power := {}
deriving DecidableEq, Repr

/-- The block at the moment a cold reset ends: PWR_OK asserted, both resets released, the device BOOTING at
step 1 and nothing yet run (R238, Table 3-5; DESIGN CHOICE, log entry 2). Every other field has the reset value its declaration gives. -/
def State.reset : State := {}

end Sys2Proof.Machine
end

