-- ==== Sys2Proof/Machine/Units.lean ====
section
/-! DEFINITION. Unit identifiers, resource references, home islands and clocks (chapters 01, 02, 04). -/

namespace Sys2Proof.Machine

/-- Class × 0x400 + index (R16). -/
def unitId (cls idx : Nat) : Nat := cls * 0x400 + idx

def unitClass (u : Nat) : Nat := u / 0x400

def unitIndex (u : Nat) : Nat := u % 0x400

/-- Number of indices of each class (Table 1-4); 0 for a class it does not list (R18). -/
def classCount (cls : Nat) : Nat :=
  match cls with
  | 0x01 => 64 | 0x02 => 8 | 0x03 => 128 | 0x04 => 12 | 0x05 => 48 | 0x06 => 256 | 0x07 => 4 | 0x08 => 32
  | 0x09 => 8 | 0x0A => 8 | 0x0B => 64 | 0x0C => 140 | 0x0D => 256 | 0x0E => 128 | 0x0F => 1 | 0x10 => 1
  | 0x11 => 1 | 0x12 => 1 | 0x13 => 1 | _ => 0

/-- The identifier names a unit of Table 1-4 (R21, R22). -/
def unitValid (u : Nat) : Bool := decide (u < 0x10000) && decide (unitIndex u < classCount (unitClass u))

def sliceUnit (n : Nat) : Nat := unitId 0x01 n
def stackUnit (n : Nat) : Nat := unitId 0x02 n
def nearUnit (n : Nat) : Nat := unitId 0x03 n
def boardUnit (n : Nat) : Nat := unitId 0x04 n
def portUnit (n : Nat) : Nat := unitId 0x05 n
def clusterUnit (n : Nat) : Nat := unitId 0x06 n
def dieUnit (n : Nat) : Nat := unitId 0x07 n
def pumpUnit (n : Nat) : Nat := unitId 0x08 n
def infuserUnit (n : Nat) : Nat := unitId 0x09 n
def gatherUnit (n : Nat) : Nat := unitId 0x0A n
def seqUnit (n : Nat) : Nat := unitId 0x0B n
def reducerUnit (n : Nat) : Nat := unitId 0x0C n
def polderUnit (n : Nat) : Nat := unitId 0x0D n
def functionUnit (f : Nat) : Nat := unitId 0x0E f
def wardenUnit : Nat := 0x3C00
def sealedUnit : Nat := 0x4000
def powerUnit : Nat := 0x4400
def hostUnit : Nat := 0x4800
def xlatUnit : Nat := 0x4C00

/-- Singleton islands (R28). -/
def islXlat : Nat := 180
def islWarden : Nat := 181
def islHost : Nat := 182
def islPmgr : Nat := 183
def islSeal : Nat := 184

/-- Home islands of a unit (Table 1-4): two for a stack, four for a compute die's ports, none for a polder. -/
def homeIslands (u : Nat) : List Nat :=
  let n := unitIndex u
  match unitClass u with
  | 0x01 | 0x0B => [n]
  | 0x02 => [64 + 2 * n, 65 + 2 * n]
  | 0x03 => [64 + n / 8]
  | 0x04 => [80 + n]
  | 0x05 => [92 + n]
  | 0x06 => [140 + n / 16]
  | 0x07 => [140 + 4 * n, 141 + 4 * n, 142 + 4 * n, 143 + 4 * n]
  | 0x08 => [156 + n / 4]
  | 0x09 => [164 + n]
  | 0x0A => [172 + n]
  | 0x0C => if n < 128 then [64 + n / 8] else [80 + (n - 128)]
  | 0x0E | 0x12 => [islHost]
  | 0x0F => [islWarden]
  | 0x10 => [islSeal]
  | 0x11 => [islPmgr]
  | 0x13 => [islXlat]
  | _ => []

/-- The island whose follower stamps a unit's events (R49); the warden island where the unit has none. -/
def stampIsland (u : Nat) : Nat := (homeIslands u).headD islWarden

/-- The units whose home island Table 1-4 gives as `isl`, stacks included (R172). -/
def unitsOfIsland (isl : Nat) : List Nat :=
  if isl < 64 then [sliceUnit isl, seqUnit isl]
  else if isl < 80 then
    let b := 8 * (isl - 64)
    (List.range 8).map (fun i => nearUnit (b + i)) ++ (List.range 8).map (fun i => reducerUnit (b + i))
      ++ [stackUnit ((isl - 64) / 2)]
  else if isl < 92 then [boardUnit (isl - 80), reducerUnit (128 + (isl - 80))]
  else if isl < 140 then [portUnit (isl - 92)]
  else if isl < 156 then (List.range 16).map fun i => clusterUnit (16 * (isl - 140) + i)
  else if isl < 164 then (List.range 4).map fun i => pumpUnit (4 * (isl - 156) + i)
  else if isl < 172 then [infuserUnit (isl - 164)]
  else if isl < 180 then [gatherUnit (isl - 172)]
  else if isl = islXlat then [xlatUnit]
  else if isl = islWarden then [wardenUnit]
  else if isl = islHost then [hostUnit]
  else if isl = islPmgr then [powerUnit]
  else if isl = islSeal then [sealedUnit]
  else []

/-- Nominal clock in MHz (Table 2-1). -/
def nominalMHz (isl : Nat) : Nat :=
  if isl < 64 then 1600 else if isl < 80 then 1200 else if isl < 92 then 1000 else if isl < 140 then 1750
  else if isl < 156 then 2000 else if isl < 164 then 1600 else if isl < 172 then 1400 else if isl < 180 then 1600
  else if isl = islXlat then 1200 else if isl = islPmgr then 800 else if isl = islSeal then 500 else 1000

/-- A board reference that an island's DPLL locks to (Table 2-1). -/
inductive Reference where
  | core
  /-- LINK_REFCLK of a quadrant. -/
  | link (quadrant : Nat)
deriving DecidableEq, Repr

/-- The reference of an island's DPLL (R36): LINK_REFCLKq of the port's quadrant for a link island, else CORE_REFCLK. -/
def islandReference (isl : Nat) : Reference :=
  if 92 ≤ isl ∧ isl < 140 then .link ((isl - 92) / 12) else .core

/-- kHz of a reference: 156.25 MHz for a link quadrant, 100 MHz for the core (Table 1-5). -/
def Reference.kHz : Reference → Nat
  | .core => 100000
  | .link _ => 156250

/-- Ten times the multiplier of an island's DPLL (Table 2-1): its nominal clock over its reference. -/
def multiplierTenths (isl : Nat) : Nat := nominalMHz isl * 10000 / (islandReference isl).kHz

/-- Resource references (Table 4-1). -/
def sluiceRef (n : Nat) : Nat := 0x01000000 + n
def caddyRef (n : Nat) : Nat := 0x02000000 + n
def orderRef (code target : Nat) : Nat := 0x03000000 + code * 0x10000 + target
def astRef (n : Nat) : Nat := 0x04000000 + n
def outWindowRef (n : Nat) : Nat := 0x05000000 + n
def inWindowRef (n : Nat) : Nat := 0x06000000 + n

def refKind (r : Nat) : Nat := r / 0x1000000
def refId (r : Nat) : Nat := r % 0x1000000

/-- The target classes Table 5-1 admits for an order code, and the power manager where it does. -/
def orderTargetOk (code target : Nat) : Bool :=
  unitValid target &&
  match code with
  | 1 => unitClass target == 0x02
  | 2 => unitClass target == 0x07 || target == powerUnit
  | 3 => unitClass target == 0x03
  | 4 => unitClass target == 0x03 || unitClass target == 0x04
  | 5 => target == powerUnit
  | 6 => unitClass target == 0x05
  | _ => false

/-- The reference is laid out as Table 4-1 gives and names a resource within range (R21, R22, R182). -/
def refValid (r : Nat) : Bool :=
  let id := refId r
  match refKind r with
  | 0 => decide (id < 0x10000) && unitValid id
  | 1 => decide (id < 64)
  | 2 => decide (id < 16384)
  | 3 => orderTargetOk (id / 0x10000) (id % 0x10000)
  | 4 => decide (id < 4096)
  | 5 => decide (id < 256)
  | 6 => decide (id < 256)
  | _ => false

/-- The mandatory orders: SO_STACK_THERMAL on each stack, SO_DIE_THERMAL on each die and the base die (R191, R192). -/
def mandatoryStack : List Nat := (List.range 8).map fun k => orderRef 1 (stackUnit k)
def mandatoryDie : List Nat := (List.range 4).map (fun d => orderRef 2 (dieUnit d)) ++ [orderRef 2 powerUnit]

namespace State

def island (s : State) (i : Nat) : IslandClock := s.clk.islands.get {} i

/-- The island's clock is gated or stopped. -/
def islandHalted (s : State) (i : Nat) : Bool := (s.island i).stopped || (s.island i).gatedAt.isSome

/-- The island is stopped for good: its DPLL stayed unlocked for more than 10 µs (R55, R949). -/
def islandStopped (s : State) (i : Nat) : Bool := (s.island i).stopped

/-- The island's DPLL has locked to its reference since the last cold reset or PERST_N (R36, R242, Table 6-1). -/
def dpllLocked (s : State) (i : Nat) : Bool := if i = islWarden then s.clk.wardenLocked else s.clk.locked.has i

/-- DPLLs lock to their references. -/
def lockDplls (s : State) (is : List Nat) : State :=
  { s with clk := { s.clk with locked := is.foldl (fun b i => b.set i ()) s.clk.locked } }

/-- A transfer into an island whose clock stands: it enters the FIFO of the crossing while that has room, else it stays
with its sender (R43, R44). Which of the island's crossings it takes no row says, so an island's share one order and one
FIFO (DESIGN CHOICE, log entry 62). -/
def cross (s : State) (i : Nat) (c : Instr) : State :=
  let x := s.clk.crossings.get {} i
  let x' := if x.fifo.length < 4 then { x with fifo := x.fifo ++ [c] } else { x with sender := x.sender ++ [c] }
  { s with clk := { s.clk with crossings := s.clk.crossings.set i x' } }

/-- A transfer into an island crosses behind others: its clock stands, or some that came meanwhile wait (R44). -/
def crosses (s : State) (i : Nat) : Bool := s.islandHalted i || s.clk.crossings.has i

/-- What a row does in an island once it has crossed into it. -/
def into (s : State) (i : Nat) (row : Instr) (f : State → State) : State := if s.crosses i then s.cross i row else f s

/-- TBASE in nanoseconds. -/
def now (s : State) : Nat := s.clk.tbase.toNat

/-- The TBASE follower of an island (R49): it trails the master by its lag, stands still while its clock is gated, and
never runs back (R47). Between broadcasts a running follower keeps its distance from the master, also while the warden
island's own clock stands, where it stands with the master (DESIGN CHOICE, log entry 34). -/
def follower (s : State) (i : Nat) : Nat :=
  let k := s.island i
  match k.gatedAt with
  | some t => t - k.lag
  | none => s.now - k.lag

/-- Function `f` exists: the PF, or an enabled VF (R868). -/
def functionExists (s : State) (f : Nat) : Bool := f == 0 || decide (f ≤ s.host.vfs)

/-- A function's BAR0 answers: configuration space populated (step 10), or the PF alone after a failed boot (R253), and
the host island's clock running. -/
def barUp (s : State) (f : Nat) : Bool :=
  !s.islandHalted islHost && s.functionExists f
    && match s.boot.config with
      | .full => true
      | .pfOnly => f == 0
      | .silent | .rrs => false

def hostFn (s : State) (f : Nat) : HostFn := s.host.fns.get {} f

def setHostFn (s : State) (f : Nat) (h : HostFn) : State := { s with host := { s.host with fns := s.host.fns.set f h } }

/-- Sends something out of the block. What goes through the host island waits in it while its clock stands (R55). -/
def emit (s : State) (o : Out) : State :=
  let held := o.viaHost && s.islandHalted islHost
  { s with out := if held then s.out else o :: s.out, heldOut := if held then o :: s.heldOut else s.heldOut }

/-- The host island runs again: what it held is sent, in order (R44, R55). -/
def releaseHost (s : State) : State := { s with out := s.heldOut ++ s.out, heldOut := [] }

/-- Takes the next free value (DESIGN CHOICE, log entry 4). -/
def freeNat (s : State) : Nat := Config.freeNat s.freeCtr

def tickFree (s : State) : State := { s with freeCtr := s.freeCtr + 1 }

/-- The function a resource is assigned to (R159): the PF unless RESOURCE_ASSIGN said otherwise. -/
def assignedFn (s : State) (ref : Nat) : Nat := s.kym.assign.get 0 ref

/-- A 64-bit generation counter: epoch in [63:40], count in [39:0] (R103). -/
def generation (s : State) (ref : Nat) : Nat := s.kym.genEpoch.toNat * 2 ^ 40 + s.kym.genCount.get 1 ref

end State

end Sys2Proof.Machine
end

