-- ==== Sys2Proof/Machine/Reserved.lean ====
section
/-! DEFINITION. The reserved area of board memory and its key (chapters 07, 21): what the warden and the memory islands write
there lies as ciphertext. -/

namespace Sys2Proof.Machine

/-- The ASCII bytes "MOLYO reserved area" (R917). -/
def reservedInfo : Bytes :=
  [0x4D, 0x4F, 0x4C, 0x59, 0x4F, 0x20, 0x72, 0x65, 0x73, 0x65, 0x72, 0x76, 0x65, 0x64, 0x20, 0x61, 0x72, 0x65, 0x61]

/-- The reserved key of a reserved seed (R917): the data key low and the tweak key high, as a slot holds its keys; the data key
comes first in the HKDF output (DESIGN CHOICE, log entry 74). -/
def deriveReserved (seed : Nat) : Nat :=
  let seedBytes : Bytes := (natBytes 48 seed).map fun v => BitVec.ofNat 8 v
  bytesNat ((hkdf384 seedBytes [] reservedInfo 64).map (·.toNat))

/-- A 32-byte sector of the reserved area as stored (R915): `place` is b × 2^32 + x, board channel and byte offset. -/
def sealReserved (key place : Nat) (sector : Bytes) : Bytes :=
  xtsSectors (key % 2 ^ 256) (key / 2 ^ 256) (2 ^ 64 + place) sector

namespace State

/-- Reserved-area accesses go on: the reserved key is derived (R917). -/
def reservedUp (s : State) : Bool := s.sealed.reservedKey.isSome

/-- Writes sectors of the reserved area at their places, encrypted under the reserved key (R915, R918: no caller gives it a key
or a polder's plaintext). -/
def reservedWrite (s : State) (sectors : List (Nat × Bytes)) : State :=
  let key := s.sealed.reservedKey.getD 0
  { s with mem := { s.mem with area := sectors.foldl (fun (b : Bank Bytes) x => b.set x.1 (sealReserved key x.1 x.2)) s.mem.area } }

/-- A 32-byte sector of the FRESH bitmap: the valid bits of 256 pages. -/
def bitmapSector (s : State) (i : Nat) : Bytes :=
  (List.range 32).map fun b =>
    BitVec.ofNat 8 ((List.range 8).foldl (fun m k => m + 2 ^ k * (if s.mem.valid.has (256 * i + 8 * b + k) then 1 else 0)) 0)

/-- The bitmap reaches the reserved area for the pages whose valid bits changed. The islands' caches of bitmap lines are not told
apart from it: what they hold and what the area holds is one bitmap (DESIGN CHOICE, log entry 77). -/
def writeBitmap (s : State) (pages : List Nat) : State :=
  s.reservedWrite ((pages.map (· / 256)).eraseDups.map fun i => (Config.bitmapPlace s.mem.reserved.cells i, s.bitmapSector i))

end State

end Sys2Proof.Machine
end

