-- ==== Sys2Proof/Machine/Events.lean ====
section
/-! DEFINITION. The event collector, the device log, function queues, the spillway, FAULT_N and MSI-X (chapters 05, 19). -/

namespace Sys2Proof.Machine

/-- Severities (Table 5-5). -/
def sevInfo : Nat := 0
def sevNotice : Nat := 1
def sevCorrected : Nat := 2
def sevDegraded : Nat := 3
def sevFailed : Nat := 4
def sevFatal : Nat := 5

/-- 10 ms in nanoseconds (R198). -/
def faultHold : Nat := 10000000

/-- Events the collector holds while the warden cannot route, or the log is not open (R218, R247). -/
def heldLimit : Nat := 1024

/-- Records the device log holds (R217). -/
def logLimit : Nat := 65536

/-- The first loss after one more lost event (R212, Table 5-8). -/
def noteLoss (fl : Option FirstLoss) (e : Event) : FirstLoss :=
  match fl with
  | none => { cls := e.cls, code := e.code, seq := e.seq, stamp := e.stamp, maxSeverity := e.severity, lost := 1 }
  | some l => { l with maxSeverity := max l.maxSeverity e.severity, lost := satInc 1048575 l.lost }

namespace State

/-- The warden cannot route an event: HALTED or RESTARTING, the log not open (R218, R247), or not to be reached (R917). -/
def routeBlocked (s : State) : Bool :=
  !s.ev.logOpen || (!s.ev.noLog && !s.reservedUp) || s.kym.warden == .halted || s.kym.warden == .restarting

/-- The state of the collector after it takes an event (R198, R201, R202, R218, R247). The collector stops with the
warden island: events that arise then are lost uncounted (R55). While the island's clock is only gated they wait on the
crossings, not yet numbered (R44). -/
def collected (s : State) (e : Event) : Events :=
  if s.islandStopped islWarden then s.ev
  else if s.islandHalted islWarden then { s.ev with waiting := s.ev.waiting ++ [e] }
  else
    let until_ := if e.severity ≥ sevFailed then some (s.now + faultHold) else s.ev.faultUntil
    if s.routeBlocked && decide (s.ev.held.length ≥ heldLimit) then
      { s.ev with faultUntil := until_, deviceLost := s.ev.deviceLost.upd 0 e.cls (· + 1),
                  deviceFirst := some (noteLoss s.ev.deviceFirst { e with seq := 0 }) }
    else
      { s.ev with faultUntil := until_, nextSeq := (s.ev.nextSeq + 1) % 2 ^ 48,
                  held := s.ev.held ++ [{ e with seq := s.ev.nextSeq }] }

/-- A unit posts an event: the collector numbers and stamps it with the TBASE of the island where it arose (R49, R201,
R202): `isl`, or the home island of the unit the event names. -/
def raise (s : State) (code severity unit : Nat) (fields : List (Nat × Nat)) (route : Route := .unit)
    (isl : Option Nat := none) : State :=
  { s with ev := s.collected { code := code, severity := severity, unit := unit,
                               stamp := s.follower (isl.getD (stampIsland unit)), detail := packBits fields % 2 ^ 96,
                               route := route, cls := code / 256 } }

/-- The warden island runs again: the events on its crossings reach the collector in order (R44, R201). -/
def collectWaiting (s : State) : State :=
  s.ev.waiting.foldl (fun s e => { s with ev := s.collected e }) { s with ev := { s.ev with waiting := [] } }

/-- A vector raised: sent, or marked pending while masked or forbidden (R853, R854). -/
def raiseVector (s : State) (f v : Nat) : State :=
  let h := s.hostFn f
  if h.msixEnable && !h.functionMask && !(h.vectors.get {} v).masked then s.emit (.msix f v)
  else s.setHostFn f { h with pba := h.pba.set v () }

/-- A singleton island's lock detector holds FAULT_N (R55). -/
def singletonStopped (s : State) : Bool :=
  [islXlat, islWarden, islHost, islPmgr].any fun i => s.islandStopped i

/-- The level of FAULT_N, true while asserted (R55, R59, R198, R199, R253, R254, R269). -/
def faultN (s : State) : Bool :=
  s.ev.faultUntil.isSome || s.boot.device == .lost || s.kym.warden == .halted || s.kym.restartFailed
    || s.singletonStopped || s.boot.failStep != 0

end State

/-- The 32-byte record of an event (Table 5-4). -/
def recordBytes (e : Event) (phase : Bool) : Bytes :=
  toLE 1 e.cls ++ toLE 1 (e.severity % 8 + 8 * natOf phase) ++ toLE 2 e.code ++ toLE 2 e.unit ++ toLE 6 e.seq
    ++ toLE 8 e.stamp ++ toLE 12 e.detail

/-- The SPILLWAY of a first loss (R214, R219, Table 5-8). -/
def spillwayEvent (l : FirstLoss) (unit seq firstSeq : Nat) : Event :=
  { cls := 0x1F, code := 0x1F01, severity := sevNotice, unit := unit, seq := seq, stamp := l.stamp,
    detail := packBits [(48, firstSeq), (16, l.code), (8, l.cls), (3, l.maxSeverity), (1, 0), (20, l.lost)] }

def EvQueue.size (q : EvQueue) : Nat := 2 ^ q.log2

/-- Full: no free entry; a disabled queue counts as full (R211). -/
def EvQueue.isFull (q : EvQueue) : Bool := !q.enabled || decide (q.held ≥ q.size)

/-- Appends one record at the write index; the phase inverts at the end of each pass (R207). -/
def EvQueue.push (q : EvQueue) : EvQueue :=
  let i := (q.idx + 1) % q.size
  { q with idx := i, held := q.held + 1, phase := if i = 0 then !q.phase else q.phase }

namespace State

def queue (s : State) (f : Nat) : EvQueue := s.ev.queues.get {} f

def setQueue (s : State) (f : Nat) (q : EvQueue) : State := { s with ev := { s.ev with queues := s.ev.queues.set f q } }

/-- Writes one record into a queue that has room. -/
def pushRecord (s : State) (f : Nat) (e : Event) : State :=
  let q := s.queue f
  (s.setQueue f q.push).emit (.event f q.idx (recordBytes e q.phase))

/-- Raises a queue's vector, once until the host moves EVQ.HEAD (R208). -/
def raiseQueueVector (s : State) (f : Nat) : State :=
  let q := s.queue f
  if q.raised then s else (s.setQueue f { q with raised := true }).raiseVector f q.vector

/-- A queue with a first loss and room receives the SPILLWAY first; the first loss is dropped (R213, R214). -/
def writeSpillway (s : State) (f : Nat) : State :=
  let q := s.queue f
  match q.first with
  | some l =>
    if q.isFull then s
    else
      let s := s.pushRecord f (spillwayEvent l (functionUnit f) l.seq l.seq)
      s.setQueue f { s.queue f with first := none }
  | none => s

/-- An event for a full queue: counted, and the first of them held (R211, R212). -/
def loseEvent (s : State) (f : Nat) (e : Event) : State :=
  let s := { s with ev := { s.ev with lost := s.ev.lost.upd 0 (32 * f + e.cls) (· + 1) } }
  let q := s.queue f
  s.setQueue f { q with first := some (noteLoss q.first e) }

/-- The warden writes an event to a function's queue (R204-R214); a SPILLWAY that takes the last entry is announced by
the vector too (R208). -/
def queueWrite (s : State) (f : Nat) (e : Event) : State :=
  let spills := (s.queue f).first.isSome && !(s.queue f).isFull
  let s := s.writeSpillway f
  if (s.queue f).isFull then
    let s := s.loseEvent f e
    if spills then s.raiseQueueVector f else s
  else (s.pushRecord f e).raiseQueueVector f

/-- The log keeps the newest 65,536 records, a ring of 32-byte sectors of the reserved area (R217, R915); without a board
channel there is none (R318). -/
def logWrite (s : State) (e : Event) : State :=
  let l := s.ev.log ++ [e]
  if s.ev.noLog then s else
  State.reservedWrite { s with ev := { s.ev with log := l.drop (l.length - logLimit), logAt := (s.ev.logAt + 1) % logLimit } }
    [(Config.logPlace s.mem.reserved.cells s.ev.logAt, recordBytes e false)]

/-- The function whose queue an event goes to, none for the log alone (R204, R1031). -/
def routeFn (s : State) (e : Event) : Option Nat :=
  match e.route with
  | .unit =>
    if unitClass e.unit = 0x0E then some (unitIndex e.unit) else some (s.assignedFn e.unit)
  | .ref r => some (s.assignedFn r)
  | .fn f => some f
  | .log => none

/-- The warden writes one event to the log, and to its queue; FAILED and FATAL events of a VF also to the PF's
(R203, R204, R205). -/
def route (s : State) (e : Event) : State :=
  let s := s.logWrite e
  match s.routeFn e with
  | none => s
  | some f =>
    let s := s.queueWrite f e
    if f != 0 && decide (e.severity ≥ sevFailed) then s.queueWrite 0 e else s

/-- Routes the oldest event the collector holds. -/
def routeOne (s : State) : State :=
  match s.ev.held with
  | [] => s
  | e :: t => { s with ev := { s.ev with held := t } }.route e

def routeMany : Nat → State → State
  | 0, s => s
  | n + 1, s => routeMany n s.routeOne

/-- The device-wide SPILLWAY after the held events are written (R219). It is counted in no lost-counter (R214): a full queue
of the PF does not get it (DEDUCED, log entry 63). -/
def deviceSpillway (s : State) : State :=
  match s.ev.deviceFirst with
  | none => s
  | some l =>
    let last := (s.ev.nextSeq + 2 ^ 48 - 1) % 2 ^ 48
    let e := spillwayEvent l 0 last 0
    let s := { s with ev := { s.ev with deviceFirst := none } }
    let s := s.logWrite e
    let room := (s.writeSpillway 0).queue 0
    if room.isFull then (if (s.queue 0).isFull then s else (s.writeSpillway 0).raiseQueueVector 0) else s.queueWrite 0 e

/-- Held events written and routed, then the device-wide SPILLWAY (R219, R247). Before the log opens nothing is written. -/
def replayHeld (s : State) : State :=
  if s.ev.logOpen then (routeMany s.ev.held.length s).deviceSpillway else s

end State

end Sys2Proof.Machine
end

