-- ==== Sys2Proof/Machine/PageCode.lean ====
section
/-! DEFINITION. The page code: sector CRCs, the Reed-Solomon codeword over GF(2^16) and the tail (R364-R369). -/

namespace Sys2Proof.Machine

/-- Products in GF(2^16) with field polynomial x^16 + x^12 + x^3 + x + 1 (R364). -/
def symMul (a b : Nat) : Nat := fieldMul 16 0x1100B 16 a b

/-- α = 0x0002 to the power `i` (R364). -/
def alphaPow (i : Nat) : Nat := (List.range i).foldl (fun x _ => symMul 2 x) 1

/-- Errors a strength corrects: t = 8, 16, 32, 64 (Table 9-1). -/
def tOf (strength : Nat) : Nat := 8 * 2 ^ strength

/-- A polynomial, highest coefficient first, times x + r. -/
def timesRoot (g : List Nat) (r : Nat) : List Nat :=
  List.zipWith (fun a b => a ^^^ symMul r b) (g ++ [0]) (0 :: g)

/-- g(x) = (x + α^0)(x + α^1) … (x + α^(2t-1)), highest coefficient first (R367). -/
def generator (t : Nat) : List Nat := (List.range (2 * t)).foldl (fun g i => timesRoot g (alphaPow i)) [1]

/-- One symbol more of the division by g: the remainder so far, highest first, and g without its leading 1. -/
def divideStep (g : List Nat) (rem : List Nat) (sym : Nat) : List Nat :=
  let q := sym ^^^ (rem.head?.getD 0)
  List.zipWith (fun a b => a ^^^ symMul q b) (rem.drop 1 ++ [0]) g

/-- The 2t parity symbols of an information word: the coefficients of m(x)·x^(2t) mod g(x), highest first (R367). -/
def paritySymbols (t : Nat) (info : List Nat) : List Nat :=
  info.foldl (divideStep ((generator t).drop 1)) (List.replicate (2 * t) 0)

/-- The CRC of a sector: CRC-16, polynomial 0x1021, from 0xFFFF, most significant bit of each byte first (R368). -/
def sectorCrc (bs : Bytes) : Nat :=
  bs.foldl (fun c b => (List.range 8).foldl (fun c _ =>
    if c ≥ 0x8000 then ((2 * c) % 65536) ^^^ 0x1021 else 2 * c) (c ^^^ (256 * b.toNat))) 0xFFFF

/-- The 128 CRC symbols of a page's ciphertext (R365, R366). -/
def crcSymbols (cipher : Bytes) : List Nat := (List.range 128).map fun j => sectorCrc ((cipher.drop (32 * j)).take 32)

/-- The 2,048 data symbols of a page's ciphertext (R366). -/
def dataSymbols (cipher : Bytes) : List Nat := (List.range 2048).map fun i => fieldAt cipher (2 * i) 2

/-- The tail of Table 9-2: CRCs, parity, and zeros where the strength leaves room (R369). -/
def layoutTail (crcs parity : List Nat) : Bytes := fitBytes 512 (crcs.flatMap (toLE 2) ++ parity.flatMap (toLE 2))

/-- The freshly computed tail of a page's ciphertext (R364-R369). -/
def encodeTail (strength : Nat) (cipher : Bytes) : Bytes :=
  let crcs := crcSymbols cipher
  layoutTail crcs (paritySymbols (tOf strength) (dataSymbols cipher ++ crcs))

/-- A tail whose CRCs are those of the ciphertext in some sectors and whose rest stays (R389). -/
def patchCrcs (tail : Bytes) (cipher : Bytes) (sectors : List Nat) : Bytes :=
  sectors.foldl (fun t j => overlay t (2 * j) (toLE 2 (sectorCrc ((cipher.drop (32 * j)).take 32)))) tail

/-- The unwritten mark in a tail (R371). -/
def markTail : Bytes := List.replicate 512 0xFF

end Sys2Proof.Machine
end

