-- ==== Sys2Proof/Machine/Memory.lean ====
section
/-! DEFINITION. Near and board memory: addresses, placement, the page code's outcomes, the merge buffer and sluices
(chapters 07, 09). Channels are numbered 0-127 near and 128-139 board, as reducers are. -/

namespace Sys2Proof.Machine

/-! ### Addresses -/

def stripeBytes : Nat := 0x200000
def slabBytes : Nat := 0x4000000
def boardBase : Nat := 0x8000000000
def scratchBase : Nat := 0xC000000000
def windowBase : Nat := 0x10000000000

/-- The channel of a device physical address (R282, R284); none where no near or board byte is. -/
def chanOf (dpa : Nat) : Option Nat :=
  if dpa < 0x6000000000 then some (dpa / 0xC0000000)
  else if boardBase ≤ dpa && dpa < boardBase + 12 * 0x1C0000000 then some (128 + (dpa - boardBase) / 0x1C0000000)
  else none

/-- First device physical address of a channel. Stack s starts at s × 0xC_0000_0000 = 16 s × 0xC000_0000. -/
def chanBase (n : Nat) : Nat := if n < 128 then n * 0xC0000000 else boardBase + (n - 128) * 0x1C0000000

def pieceBytes (n : Nat) : Nat := if n < 128 then stripeBytes else slabBytes

def chanUnit (n : Nat) : Nat := if n < 128 then nearUnit n else boardUnit (n - 128)

/-- The memory island of a channel (Table 1-4). -/
def chanIsland (n : Nat) : Nat := stampIsland (chanUnit n)

/-- A stripe or slab as placement tables name it: channel × 0x1000 + number. -/
def pieceOf (dpa : Nat) : Option Nat := (chanOf dpa).map fun n => n * 0x1000 + (dpa - chanBase n) / pieceBytes n

def pieceDpa (v : Nat) : Nat := chanBase (v / 0x1000) + v % 0x1000 * pieceBytes (v / 0x1000)

/-- Interleave granule g in bytes. -/
def granuleBytes (g : Nat) : Nat := if g = 0 then 256 else if g = 1 then 4096 else 0x200000

/-- The hash of HASH128 (Table 7-4). -/
def hash128 (x g : Nat) : Nat := (x ^^^ (x / 128) ^^^ (x / 16384) ^^^ g ^^^ (g / 128)) % 128

/-- Placement-table index and offset in its piece of a polder offset (R288, R289, Table 7-4). -/
def locate (p : Polder) (o : Nat) : Nat × Nat :=
  let g := granuleBytes p.granule
  if p.tier = 0 then
    let gi := o / 0x10000000
    let r := o % 0x10000000
    let u := r / g
    let w := r % g
    if p.interleave = 0 then (gi * 128 + r / stripeBytes, r % stripeBytes)
    else if p.interleave = 1 then
      let span := u / 16 * g + w
      (gi * 128 + u % 16 * 8 + span / stripeBytes, span % stripeBytes)
    else
      let x := u / 128
      let pos := if p.interleave = 2 then u % 128 else (u % 128) ^^^ hash128 x gi
      (gi * 128 + pos, x * g + w)
  else
    let gi := o / 0x30000000
    let r := o % 0x30000000
    let u := r / g
    (gi * 12 + u % 12, u / 12 * g + r % g)

/-- Size of a polder in bytes. -/
def Polder.bytes (p : Polder) : Nat := p.size * 0x10000000

/-- The device physical address of a polder offset, through the placement table (R289). -/
def Polder.dpa (p : Polder) (o : Nat) : Option Nat :=
  let (i, off) := locate p o
  if o < p.bytes then (p.place.get? i).map fun v => pieceDpa v + off else none

/-- Positions of a mode (Table 7-4). -/
def Polder.positions (p : Polder) : Nat :=
  match p.interleave with
  | 0 => 1
  | 1 => 16
  | 4 => 12
  | _ => 128

/-- The polder offset that `locate` takes to a placement-table index and an offset in its piece. -/
def Polder.offsetOf (p : Polder) (i off : Nat) : Nat :=
  let g := granuleBytes p.granule
  let near := i / 128 * 0x10000000
  if p.tier = 1 then i / 12 * 0x30000000 + (off / g * 12 + i % 12) * g + off % g
  else if p.interleave = 0 then near + i % 128 * stripeBytes + off
  else if p.interleave = 1 then
    let span := i % 8 * stripeBytes + off
    near + (span / g * 16 + i % 128 / 8) * g + span % g
  else
    let x := off / g
    let u := if p.interleave = 2 then i % 128 else (i % 128) ^^^ hash128 x (i / 128)
    near + (x * 128 + u) * g + off % g

/-- The lowest polder offset of the `i`-th page in increasing polder offset. With units of 256 bytes a page holds sixteen
units, one in every row of positions. -/
def Polder.pageOffset (p : Polder) (i : Nat) : Nat :=
  if p.granule = 0 then i / p.positions * (4096 * p.positions) + i % p.positions * 256 else 4096 * i

/-- The number of a DPA page within its polder, in increasing polder offset: what conversion boundaries count (Table 7-7,
chapter 22). -/
def Polder.pageIndex (p : Polder) (dpa : Nat) : Option Nat :=
  match pieceOf dpa with
  | none => none
  | some v => (p.place.find? fun _ w => w == v).map fun c =>
    let o := p.offsetOf c.1 (alignDown (dpa - pieceDpa v) 4096)
    if p.granule = 0 then o / (4096 * p.positions) * p.positions + o % (4096 * p.positions) / 256 else o / 4096

/-- The DPA page that has a number in its polder. -/
def Polder.pageAt (p : Polder) (i : Nat) : Option Nat := (p.dpa (p.pageOffset i)).map (· / 4096)

/-- Parity beats of 32 bytes a commit writes (Table 9-1). -/
def parityBeats (strength : Nat) : Nat := 2 ^ strength

/-! ### Bytes -/

/-- One byte of memory as the cells hold it. -/
def Memory.byte (m : Memory) (a : Nat) : Byte := (Bank.find m.cells a).getD 0

def Memory.bytes (m : Memory) (a n : Nat) : Bytes := (List.range n).map fun i => m.byte (a + i)

/-- Cells of a run of bytes, zeros left out. -/
def cellsOf : Nat → Bytes → List Host.Cell
  | _, [] => []
  | a, b :: t => if b = 0 then cellsOf (a + 1) t else (a, b) :: cellsOf (a + 1) t

/-- Replaces the cells of `[a, a + bs.length)`. -/
def splice (cells : List Host.Cell) (a : Nat) (bs : Bytes) : List Host.Cell :=
  cells.filter (fun c => decide (c.1 < a)) ++ cellsOf a bs ++ cells.filter fun c => decide (a + bs.length ≤ c.1)

def Memory.write (m : Memory) (a : Nat) (bs : Bytes) : Memory := { m with cells := splice m.cells a bs }

/-- The canonical form of the cells: addresses strictly rising, no listed zero. -/
def Memory.wf (m : Memory) : Bool := Bank.sorted m.cells && m.cells.all fun c => c.2 != 0

namespace State

def unitState (s : State) (u : Nat) : UnitState :=
  let u' := if unitClass u = 0x0B then sliceUnit (unitIndex u)
    else if unitClass u = 0x0C then chanUnit (unitIndex u) else u
  s.svc.states.get (if unitClass u = 0x05 then .outOfService else .inService) u'

def inService (s : State) (u : Nat) : Bool := s.unitState u == .inService

def chan (s : State) (n : Nat) : Channel := s.mem.channels.get {} n

def setChan (s : State) (n : Nat) (c : Channel) : State :=
  { s with mem := { s.mem with channels := s.mem.channels.set n c } }

def polder? (s : State) (i : Nat) : Option Polder := s.mem.polders.get? i

def setPolder (s : State) (i : Nat) (p : Polder) : State :=
  { s with mem := { s.mem with polders := s.mem.polders.set i p } }

/-- The polder a device physical address belongs to. -/
def ownerOf (s : State) (dpa : Nat) : Option (Nat × Polder) :=
  match pieceOf dpa with
  | none => none
  | some v => s.mem.polders.find? fun _ p => p.place.any fun _ w => w == v

/-- Strength and key slot of a page: those of the side of the boundary it lies on (R411). -/
def pageSide (p : Polder) (dpa : Nat) : Nat × Nat :=
  match p.conv with
  | none => (p.strength, p.key)
  | some c =>
    match p.pageIndex dpa with
    | some i => if i < c.boundary then (c.newStrength, c.newKey) else (p.strength, p.key)
    | none => (p.strength, p.key)

/-- A page's ciphertext: each sector one data unit, its DPA the tweak, under the slot of the page's side (R914). -/
def cipherOf (s : State) (p : Polder) (page : Nat) (bs : Bytes) : Bytes :=
  let k := s.sealed.slots.get 0 (pageSide p (4096 * page)).2
  xtsSectors (k % 2 ^ 256) (k / 2 ^ 256) (4096 * page) bs

/-- The page's key slot is empty: its polder is keyless there (R919). -/
def keyless (s : State) (p : Polder) (dpa : Nat) : Bool := !s.sealed.slots.has (pageSide p dpa).2

def stackFailed (s : State) (st : Nat) : Bool := (s.mem.nearStacks.get {} st).failed

/-- A poison list is full: the channel takes no access (R315, R392). -/
def chanStopped (s : State) (n : Nat) : Bool := decide ((s.chan n).poison.length ≥ 64)

/-! ### Sluices -/

/-- Traffic charged to a sluice waits at channel `n`: the sluice's credit, or the share of it divided to the channel, is zero
or below (R297, R299). A channel the last division gave no share draws on the whole credit (DESIGN CHOICE, log entry 67). -/
def sluiceHolds (s : State) (sluice : Option Nat) (n : Nat) : Bool :=
  match sluice with
  | none => false
  | some i => match s.mem.sluices.get? i with
    | none => false
    | some q => decide (q.credit ≤ 0) || (match q.share.get? n with | some x => decide (x ≤ 0) | none => false)

/-- A bound polder's request waits at channel `n` (R297). -/
def mustWait (s : State) (p : Polder) (n : Nat) : Bool := s.sluiceHolds p.sluice n

/-- SO_STACK_THERMAL on the stack of near channel `n`. -/
def stackOrder (s : State) (n : Nat) : Order := s.orders.get {} (0x10000 + stackUnit (n / 16))

/-- Activation cap of a near channel in percent: cap_pct while SO_STACK_THERMAL is triggered, else 100 (R309). -/
def capPct (s : State) (n : Nat) : Nat := if (s.stackOrder n).triggered then fieldAt (s.stackOrder n).inForce 4 1 else 100

/-- The channel has made the row activations that its cap allows in this microsecond: cap_pct of 160 (R309). -/
def capped (s : State) (n : Nat) : Bool :=
  decide (n < 128) && (s.stackOrder n).triggered && (s.chan n).actsAt == s.now / 1000
    && decide (160 * s.capPct n ≤ 100 * (s.chan n).acts)

/-- Row activations of one access, counted while the order is triggered (R309). An access touches the rows of its data and of
its tail; which of them stand open the spec does not say, so their number is a free value up to two (DESIGN CHOICE, log entry 68). -/
def activate (s : State) (n : Nat) : State :=
  if n < 128 && (s.stackOrder n).triggered then
    let c := s.chan n
    let before := if c.actsAt = s.now / 1000 then c.acts else 0
    State.tickFree (s.setChan n { c with acts := before + s.freeNat % 3, actsAt := s.now / 1000 })
  else s

/-- One access of a channel: its bytes on the data wires are charged (R296, R299), its row activations counted (R309). -/
def charge (s : State) (sluice : Option Nat) (n bytes : Nat) : State :=
  let s := s.activate n
  match sluice with
  | none => s
  | some i => { s with mem := { s.mem with sluices := s.mem.sluices.modify i fun q =>
      { q with credit := q.credit - bytes, used := q.used.upd 0 n (· + bytes), share := q.share.modify n (· - bytes) } } }

/-! ### Events of the page code (Table 9-6) -/

/-- The second of TBASE. -/
def second (s : State) : Nat := s.now / 1000000000

def memDetail (dpa data check source strength tail : Nat) : List (Nat × Nat) :=
  [(48, dpa), (8, data), (8, check), (4, source), (2, strength), (10, 0), (16, tail)]

/-- A corrected or check-only outcome: counted; the first in each second of TBASE raises its event (R402). -/
def noteCorrected (s : State) (n dpa data check source strength : Nat) : State :=
  let c := s.chan n
  let dataErr := data != 0
  let st := if dataErr then c.correctedEv else c.checkOnlyEv
  let fire := st.last != some s.second
  let st' : SecondState := if fire then { last := some s.second, since := 0 } else { st with since := satInc 65535 st.since }
  let c := if dataErr then
      { c with corrected := c.corrected + 1, correctedEv := st', correctedAt := s.now :: c.correctedAt }
    else { c with checkOnly := c.checkOnly + 1, checkOnlyEv := st' }
  let s := s.setChan n c
  if fire then
    s.raise (if dataErr then 0x0501 else 0x0502) sevCorrected (chanUnit n)
      (memDetail dpa data check source strength (satInc 65535 st.since))
  else s

/-- An uncorrectable outcome: counted; one event a page and second of TBASE (R401). -/
def noteUncorrectable (s : State) (n dpa source strength : Nat) : State :=
  let c := s.chan n
  let page := dpa / 4096
  let fire := c.uncorrEv.get? page != some s.second
  let s := s.setChan n { c with uncorrectable := c.uncorrectable + 1, uncorrEv := c.uncorrEv.set page s.second }
  if fire then s.raise 0x0503 sevFailed (chanUnit n) (memDetail dpa 0xFF 0xFF source strength 0) else s

/-- An UNWRITTEN outcome or a poison-list hit: counted only (R401, Table 9-3). -/
def countUncorrectable (s : State) (n : Nat) : State :=
  let c := s.chan n
  s.setChan n { c with uncorrectable := c.uncorrectable + 1 }

/-- A poison list of 64 gains an entry; a full list stops the channel and is reported (R313, R315, R390, R392). -/
def addPoison (s : State) (n entry dpa : Nat) : State :=
  let c := s.chan n
  if c.poison.contains entry || decide (c.poison.length ≥ 64) then s
  else
    let s := s.setChan n { c with poison := c.poison ++ [entry] }
    if c.poison.length + 1 ≥ 64 then
      s.raise 0x0503 sevFailed (chanUnit n) (memDetail dpa 0xFF 0xFF (if n < 128 then 2 else 6) 0 1)
    else s

def dropPoison (s : State) (n entry : Nat) : State :=
  let c := s.chan n
  s.setChan n { c with poison := c.poison.filter (· != entry) }

end State

/-! ### Rows (R370, R413) -/

/-- Bank and user row of a channel offset. -/
def userRow (c : Nat) : Nat × Nat := (c / 8192 % 32, c / 8192 / 32)

/-- Bank and tail row of the page at a channel offset. -/
def tailRow (c : Nat) : Nat × Nat := (c / 65536 % 32, 12288 + c / 65536 / 32)

/-- Counts one error in a row; a full table of 256 drops the row least recently counted (R413, R414). -/
def countRow (rows : List RowTrack) (window now : Nat) (b r : Nat) : List RowTrack :=
  match rows.find? fun t => t.bank == b && t.row == r with
  | some t =>
    let t' : RowTrack := if window != 0 && decide (now > t.first + window) then { t with count := 1, first := now, last := now }
      else { t with count := t.count + 1, last := now }
    (rows.filter fun t => !(t.bank == b && t.row == r)) ++ [t']
  | none => (if rows.length ≥ 256 then rows.drop 1 else rows) ++ [⟨b, r, 1, now, now⟩]

namespace State

/-- SO_REMAP_LIVE on a near channel. -/
def remapOrder (s : State) (n : Nat) : Order := s.orders.get {} (3 * 0x10000 + nearUnit n)

/-- Window of SO_REMAP_LIVE in nanoseconds, 0 while unarmed. -/
def remapWindow (s : State) (n : Nat) : Nat :=
  let o := s.remapOrder n
  if o.armed then fieldAt o.params 4 4 * 1000000000 else 0

/-- A decode that found an error counts once in each row that holds an erroneous symbol (R413). -/
def countRows (s : State) (n dpa : Nat) (errs : List Nat) : State :=
  if n < 128 then
    let c := s.chan n
    let off := dpa - chanBase n
    let w := s.remapWindow n
    let r1 := if errs.any (· < 2048) then countRow c.rows w s.now (userRow off).1 (userRow off).2 else c.rows
    let r2 := if errs.any (2048 ≤ ·) then countRow r1 w s.now (tailRow off).1 (tailRow off).2 else r1
    s.setChan n { c with rows := r2 }
  else s

/-- The address of the first sector a decode found wrong, by its data or its CRC; of the page where only parity symbols were
(Table 9-6; DEDUCED, log entry 56). -/
def firstAffected (page : Nat) (errs : List Nat) : Nat :=
  4096 * page + 32 * (((errs.filter (· < 2176)).map fun q => if q < 2048 then q / 16 else q - 2048).min?.getD 0)

/-- A full decode that succeeded: a CORRECTED or CHECK_ONLY outcome is counted and reported once, and counted in the rows of
its wrong symbols (R377, R402, R413); a CLEAN one does nothing. -/
def noteDecode (s : State) (n page source : Nat) (g : Page) : State :=
  if g.errs.isEmpty then s
  else
    let data := (g.errs.filter (· < 2048)).length
    (s.noteCorrected n (firstAffected page g.errs) data (g.errs.length - data) source g.strength).countRows n (4096 * page) g.errs

/-- A page whose tail reads as the unwritten mark (R371). -/
def unwritten (g : Page) : Bool := g.tail == markTail

end State

/-! ### The merge buffer -/

/-- Distinct sectors an entry holds. -/
def MergeEntry.sectors (e : MergeEntry) : List Nat :=
  ((e.bytes.keys.map (· / 32)) ++ e.scrub.map fun p => if p < 2048 then p / 16 else p - 2048).eraseDups

/-- Codeword position `p` lies in the data or the CRC of sector `j`. -/
def inSector (j p : Nat) : Bool := p / 16 == j && decide (p < 2048) || p == 2048 + j

/-- Every byte of a sector is present in an entry. -/
def MergeEntry.covers (e : MergeEntry) (j : Nat) : Bool := (List.range 32).all fun i => e.bytes.has (32 * j + i)

/-- Bytes from a page offset on into an entry. -/
def MergeEntry.putBytes (e : MergeEntry) (off : Nat) (bs : Bytes) : MergeEntry :=
  { e with bytes := bs.zipIdx.foldl (fun b p => b.set (off + p.2) p.1) e.bytes }

namespace State

def entryOf (s : State) (n page : Nat) : Option MergeEntry := (s.chan n).entries.find? fun e => e.page == page

def dropEntry (s : State) (n page : Nat) : State :=
  let c := s.chan n
  s.setChan n { c with entries := c.entries.filter fun e => e.page != page }

/-- Bytes of a page as stored, overlaid by the page's entry (R385). -/
def overlaid (s : State) (n dpa len : Nat) : Bytes :=
  match s.entryOf n (dpa / 4096) with
  | none => s.mem.bytes dpa len
  | some e => (List.range len).map fun i => (e.bytes.get? (dpa % 4096 + i)).getD (s.mem.byte (dpa + i))

/-- A page's FRESH valid bit is clear (R396). -/
def freshClear (s : State) (p : Polder) (page : Nat) : Bool := p.fresh && !s.mem.valid.has page

/-- Writes a whole page with a freshly computed tail: no wrong symbol, the polder's strength on its side of the
boundary, the valid bit set (R388, R393, R398). -/
def storePage (s : State) (p : Polder) (page : Nat) (bs : Bytes) : State :=
  let bs := fitBytes 4096 bs
  let strength := (pageSide p (4096 * page)).1
  State.writeBitmap { s with mem := { s.mem.write (4096 * page) bs with
      pages := s.mem.pages.set page { strength := strength, tail := encodeTail strength (s.cipherOf p page bs) }
      valid := if p.fresh then s.mem.valid.set page () else s.mem.valid } } (if p.fresh then [page] else [])

/-- Wires moved by a commit: sectors, CRC beats and parity beats, read and then written; a board page is rewritten. -/
def commitBytes (n : Nat) (e : MergeEntry) (strength : Nat) : Nat :=
  if n < 128 then 2 * 32 * (e.sectors.length + (e.sectors.map (· / 16)).eraseDups.length + parityBeats strength) else 9216

/-- Commits the entry of a page. The parity delta of R386 equals a full re-encode, so near and board pages alike hold the tail
of their new content (R386, R387); R389, R394, R397 and R920 say what a page that is uncorrectable, unwritten, FRESH or keyless
becomes. -/
def commit (s : State) (n page : Nat) : State :=
  match s.entryOf n page with
  | none => s
  | some e =>
    let s := s.dropEntry n page
    match s.ownerOf (4096 * page) with
    | none => s
    | some (_, p) =>
      if s.keyless p (4096 * page) then s
      else
        let strength := (pageSide p (4096 * page)).1
        let merged (base : Nat → Byte) : Bytes := (List.range 4096).map fun i => (e.bytes.get? i).getD (base i)
        if s.freshClear p page then (s.charge p.sluice n 4608).storePage p page (merged fun _ => 0)
        else
          let s := s.charge p.sluice n (commitBytes n e strength)
          let bs := merged fun i => s.mem.byte (4096 * page + i)
          match s.mem.pages.get? page with
          | none => { s with mem := s.mem.write (4096 * page) bs }
          | some g =>
            if unwritten g then { s with mem := s.mem.write (4096 * page) bs } else
            let left := g.errs.filter fun q => !(e.sectors.any fun j => inSector j q)
            let cipher := s.cipherOf p page bs
            if g.errs.length > tOf g.strength then
              let parity := (List.range (2 * tOf g.strength)).map (2176 + ·)
              let s := { s with mem := { s.mem.write (4096 * page) bs with
                pages := s.mem.pages.set page
                  { g with errs := (left.filter (· < 2176)) ++ parity, tail := patchCrcs g.tail cipher e.sectors } } }
              s.noteUncorrectable n (4096 * page) 2 g.strength
            else
              let s := if n < 128 then s else s.noteDecode n page 2 g
              { s with mem := { s.mem.write (4096 * page) bs with
                  pages := s.mem.pages.set page
                    { g with errs := if n < 128 then left else [], tail := encodeTail g.strength cipher } } }

/-- Opens an entry for a page, committing the oldest when all 64 are open (R383). -/
def openEntry (s : State) (n page : Nat) : State :=
  let oldest := (s.chan n).entries.head?
  let s := match oldest with
    | some e => if (s.chan n).entries.length ≥ 64 then s.commit n e.page else s
    | none => s
  let c := s.chan n
  s.setChan n { c with entries := c.entries ++ [{ page := page, opened := s.now }] }

/-- Changes the entry of a page, opened if need be; the 16th distinct sector commits it (R380, R382). -/
def joinEntry (s : State) (n page : Nat) (f : MergeEntry → MergeEntry) : State :=
  let s := if (s.entryOf n page).isSome then s else s.openEntry n page
  let c := s.chan n
  let s := s.setChan n { c with entries := c.entries.map fun e => if e.page == page then f e else e }
  match s.entryOf n page with
  | some e => if e.sectors.length ≥ 16 then s.commit n page else s
  | none => s

/-- Sectors a byte run covers whole leave the near poison list (R391). -/
def unpoison (s : State) (n dpa len : Nat) : State :=
  if n < 128 then
    let c := s.chan n
    s.setChan n { c with poison := c.poison.filter fun j => !(decide (dpa ≤ 32 * j) && decide (32 * j + 32 ≤ dpa + len)) }
  else s

/-- A byte run cut at sector boundaries: address and bytes of each part. -/
def sectorParts (dpa : Nat) (bs : Bytes) : List (Nat × Bytes) :=
  (List.range ((dpa % 32 + bs.length + 31) / 32)).map fun k =>
    let lo := max dpa (alignDown dpa 32 + 32 * k)
    (lo, (bs.drop (lo - dpa)).take (alignDown lo 32 + 32 - lo))

/-- One sector's part of a write smaller than a page (R380, R381, R390, R391): a part that arrives poisoned is not written. -/
def applyPart (s : State) (n : Nat) (bad : List Nat) (x : Nat × Bytes) : State :=
  let page := x.1 / 4096
  if bad.contains (x.1 % 4096 / 32) then s.addPoison n (if n < 128 then x.1 / 32 else page) (alignDown x.1 32)
  else (s.unpoison n x.1 x.2.length).joinEntry n page fun e => e.putBytes (x.1 % 4096) x.2

/-- A write that has reached its channel: a whole page is stored under a fresh tail and leaves a board poison list, its sectors
a near one (R388, R314, R391); less joins the page's entry (R380, R381); a sector that arrives poisoned is not written, and it,
or its board page, enters the poison list (R390). A keyless polder's is discarded, poison and all (R920). -/
def applyWrite (s : State) (n : Nat) (w : HeldWrite) : State :=
  let page := w.dpa / 4096
  match s.ownerOf w.dpa with
  | none => s
  | some (_, p) =>
    if s.keyless p w.dpa then s
    else if w.bytes.length = 4096 then
      let s := s.dropEntry n page
      let s := if n < 128 then s.unpoison n w.dpa 4096 else s.dropPoison n page
      (s.charge p.sluice n 4608).storePage p page w.bytes
    else
      (sectorParts w.dpa w.bytes).foldl (fun s x => s.applyPart n w.bad x) s

/-- The channel lets writes in: it is not stopped (R315, R392), its island's clock runs (R44), and none waits. -/
def takesWrites (s : State) (n : Nat) : Bool :=
  !s.chanStopped n && !s.islandHalted (chanIsland n) && (s.chan n).held.isEmpty

/-- A write to near or board memory: it reaches its channel, or is held on its way. -/
def writeMem (s : State) (w : HeldWrite) : State :=
  match chanOf w.dpa with
  | none => s
  | some n =>
    if s.takesWrites n then s.applyWrite n w
    else
      let c := s.chan n
      s.setChan n { c with held := c.held ++ [w] }

/-- A write smaller than a page, within one page. -/
def narrowWrite (s : State) (dpa : Nat) (bs : Bytes) : State := s.writeMem { dpa := dpa, bytes := bs }

/-- A whole-page write. -/
def fullPageWrite (s : State) (page : Nat) (bs : Bytes) : State :=
  s.writeMem { dpa := 4096 * page, bytes := fitBytes 4096 bs }

/-- Some write that is held on its way meets a condition. -/
def heldAny (s : State) (p : HeldWrite → Bool) : Bool := s.mem.channels.any fun _ (c : Channel) => c.held.any p

/-- What was held for a channel goes in, oldest first, as long as it lets writes in. -/
def releaseWrites (s : State) (n : Nat) : State :=
  (s.chan n).held.foldl (fun s w => s.writeMem w) (s.setChan n { s.chan n with held := [] })

end State

/-! ### Reading -/

/-- Why a read is poisoned (Table 9-4 and the unwritten cause of R401). -/
inductive Bad where
  | uncorrectable | unwritten
  /-- A poisoned word of the Basin (R357). -/
  | basin
deriving DecidableEq, Repr

/-- What a read delivers: its bytes, and why they are poisoned if they are. -/
structure ReadOut where
  bytes : Bytes
  bad : Option Bad := none
deriving DecidableEq, Repr

namespace State

/-- Adds the wrong symbols this access finds in the array to those the page holds. -/
def withFaults (s : State) (page : Nat) (faults : List Nat) : State :=
  if faults.isEmpty then s
  else { s with mem := { s.mem with pages := s.mem.pages.modify page fun g =>
    { g with errs := (g.errs ++ faults.filter fun f => !g.errs.contains f) } } }

/-- The scrub entry of a corrected or check-only decode: data and CRC symbols only (R378, R379). -/
def scrub (s : State) (n page : Nat) (errs : List Nat) : State :=
  let fix := errs.filter (· < 2176)
  if fix.isEmpty then s else s.joinEntry n page fun e => { e with scrub := (e.scrub ++ fix).eraseDups }

/-- A full read of a page, or of `[dpa, dpa + len)` of it: the outcome by Table 9-3 and its action (R371-R379, R384,
R385, R396, R400), the poison list first (R314, R391); a board read that failed all retries is uncorrectable (R312). `source`
is that of Table 9-6. -/
def fullRead (s : State) (dpa len source : Nat) : State × ReadOut :=
  let zeros : Bytes := List.replicate len 0
  match chanOf dpa, s.ownerOf dpa with
  | some n, some (_, p) =>
    let page := dpa / 4096
    let c := s.chan n
    let sectors := (List.range ((dpa % 32 + len + 31) / 32)).map (dpa % 4096 / 32 + ·)
    let served := match s.entryOf n page with
      | some e => sectors.all fun j => e.covers j
      | none => false
    let listed := c.poison.any fun q => if n < 128 then sectors.any fun j => q == page * 128 + j else q == page
    let fresh := s.freshClear p page
    if (n < 128 && s.stackFailed (n / 16)) || s.keyless p dpa then (s, ⟨zeros, some .uncorrectable⟩)
    else if c.failedReads.contains page then
      (s.setChan n { c with failedReads := c.failedReads.filter (· != page) }, ⟨zeros, some .uncorrectable⟩)
    else if listed then
      ((if fresh then s else s.charge p.sluice n 4608).countUncorrectable n, ⟨zeros, some .uncorrectable⟩)
    else if served then (s, ⟨s.overlaid n dpa len, none⟩)
    else if fresh then
      (s, ⟨match s.entryOf n page with
        | some e => (List.range len).map fun i => (e.bytes.get? (dpa % 4096 + i)).getD 0
        | none => zeros, none⟩)
    else
      let s := s.charge p.sluice n 4608
      match s.mem.pages.get? page with
      | none => (s.countUncorrectable n, ⟨zeros, some .unwritten⟩)
      | some g =>
        if unwritten g then (s.countUncorrectable n, ⟨zeros, some .unwritten⟩)
        else if g.errs.length ≤ tOf g.strength then
          ((s.noteDecode n page source g).scrub n page g.errs, ⟨s.overlaid n dpa len, none⟩)
        else (s.noteUncorrectable n (alignDown dpa 32) source g.strength, ⟨zeros, some .uncorrectable⟩)
  | some n, none =>
    if 128 ≤ n && !s.mem.trained.contains (n - 128) then (s, ⟨zeros, some .uncorrectable⟩)
    else (s.countUncorrectable n, ⟨zeros, some .unwritten⟩)
  | none, _ => (s, ⟨zeros, some .uncorrectable⟩)

/-- The 32-byte beat of a tail that holds the CRC of sector `j` reads as all 0xFF (R372). -/
def blankBeat (g : Page) (j : Nat) : Bool := (g.tail.drop (32 * (j / 16))).take 32 == List.replicate 32 0xFF

/-- A narrow read of one sector: a burst of 64 bytes, served from the sector alone when its CRC matches; else a full decode
follows, which reports itself as a full read, as in the worked example of chapter 09 (R305, R306, R372, R373). -/
def narrowRead (s : State) (dpa : Nat) : State × ReadOut :=
  let a := alignDown dpa 32
  match chanOf a, s.ownerOf a with
  | some n, some (_, p) =>
    let page := a / 4096
    let j := a % 4096 / 32
    let covered := match s.entryOf n page with
      | some e => e.covers j
      | none => false
    if 128 ≤ n || s.stackFailed (n / 16) || s.keyless p a || s.freshClear p page || covered
        || (s.chan n).poison.contains (a / 32) then s.fullRead a 32 1
    else
      let s := s.charge p.sluice n 64
      match s.mem.pages.get? page with
      | some g =>
        if !blankBeat g j && g.errs.all fun q => !inSector j q then (s, ⟨s.overlaid n a 32, none⟩) else s.fullRead a 32 1
      | none => s.fullRead a 32 1
  | _, _ => s.fullRead a 32 1

end State

end Sys2Proof.Machine
end

