-- ==== Sys2Proof/Machine/Basin.lean ====
section
/-! DEFINITION. The Basin: home slices, sets, allocation, write-back, scratchpad and SECDED (chapter 08). -/

namespace Sys2Proof.Machine

/-- Home slice of a line (R326). -/
def homeSlice (a : Nat) : Nat :=
  (List.range 7).foldl (fun x k => x ^^^ (a / 2 ^ (7 + 6 * k) % 64)) 0

/-- Set of a line in a slice with `q` cache quarters (R327). -/
def setOfLine (a q : Nat) : Nat := a / 8192 % (1536 * q)

/-- Tree pseudo-LRU over 16 ways: the tree after an access to `way` points away from it (R339). -/
def plruTouch (tree way : Nat) : Nat :=
  let step := fun (acc : Nat × Nat) (lvl : Nat) =>
    let (t, node) := acc
    let right := bitOf way (3 - lvl)
    (setBit t node (!right), 2 * node + (if right then 2 else 1))
  ((List.range 4).foldl step (tree, 0)).1

/-- The way the tree points at. -/
def plruVictim (tree : Nat) : Nat :=
  let step := fun (acc : Nat × Nat) (_ : Nat) =>
    let (way, node) := acc
    let right := bitOf tree node
    (2 * way + natOf right, 2 * node + (if right then 2 else 1))
  ((List.range 4).foldl step (0, 0)).1

namespace Slice

/-- Quarter `q` is in scratchpad mode. -/
def isScratch (x : Slice) (q : Nat) : Bool := bitOf x.scratch q

/-- Number of cache quarters. -/
def cacheQuarters (x : Slice) : Nat := ((List.range 4).filter fun q => !x.isScratch q).length

/-- Cache quarter that holds set `set`: the (set div 1,536)-th, counting cache quarters upward (R327). -/
def quarterOfSet (x : Slice) (set : Nat) : Nat :=
  (((List.range 4).filter fun q => !x.isScratch q)[set / 1536]?).getD 0

def setOf (x : Slice) (tag : Nat) : Nat := setOfLine (tag * 128) x.cacheQuarters

def lookup (x : Slice) (tag : Nat) : Option Line := x.lines.find? fun l => l.tag == tag

/-- Puts a line at the front: the list is kept most recently used first. -/
def useLine (x : Slice) (l : Line) : Slice :=
  let set := x.setOf l.tag
  { x with lines := l :: x.lines.filter fun m => m.tag != l.tag
           plru := x.plru.set set (plruTouch (x.plru.get 0 set) l.way) }

def removeLine (x : Slice) (tag : Nat) : Slice := { x with lines := x.lines.filter fun m => m.tag != tag }

/-- Lines of a polder. -/
def held (x : Slice) (polder : Nat) : Nat := (x.lines.filter fun l => l.polder == polder).length

end Slice

namespace State

def slice (s : State) (n : Nat) : Slice := s.basin.get {} n

def setSlice (s : State) (n : Nat) (x : Slice) : State := { s with basin := s.basin.set n x }

/-- A BASIN_PARTITION of slice `n` has not ended: its lines are being written back (R349, R350). -/
def repartitions (s : State) (n : Nat) : Bool :=
  s.kym.running.any fun (r : Running) => r.opcode == 0x1101 && r.ref == sliceUnit n && r.outcome.isNone

/-- Slice `n` caches lines: it has a cache quarter, is IN_SERVICE and is not being repartitioned (R328, R350, R950). -/
def caches (s : State) (n : Nat) : Bool :=
  decide ((s.slice n).cacheQuarters ≠ 0) && s.inService (sliceUnit n) && !s.repartitions n

/-- Slices that hold at least one cache quarter (R336, R950). -/
def cachingSlices (s : State) : Nat := ((List.range 64).filter s.caches).length

/-- Per-slice quota of a polder in lines (R336). -/
def sliceQuota (s : State) (p : Polder) : Nat := if s.cachingSlices = 0 then 0 else p.quota * 8 / s.cachingSlices

/-- Writes a line back, as one 128-byte write to its page, poisoned sectors flagged (R345, R390). -/
def writeBack (s : State) (l : Line) : State :=
  if !l.dirty then s
  else
    let poisoned := (List.range 4).filter fun j => l.poison.any fun w => w / 4 == j
    s.writeMem { dpa := l.tag * 128, bytes := l.data, bad := poisoned.map (l.tag * 128 % 4096 / 32 + ·) }

/-- A write-back of a line homed in slice `n` is held on its way to memory. -/
def writingBack (s : State) (n : Nat) : Bool := s.heldAny fun w => homeSlice w.dpa == n

/-- Writes back and drops every line of slice `n` that meets a condition (R345, R349). -/
def dropLines (s : State) (n : Nat) (p : Line → Bool) (write : Bool) : State :=
  let x := s.slice n
  let s := if write then (x.lines.filter p).foldl writeBack s else s
  s.setSlice n { x with lines := x.lines.filter fun l => !p l }

/-- Writes back every dirty line of slice `n` that meets a condition and keeps it, clean (R347). -/
def cleanLines (s : State) (n : Nat) (p : Line → Bool) : State :=
  let x := s.slice n
  let s := (x.lines.filter p).foldl writeBack s
  s.setSlice n { x with lines := x.lines.map fun l => if p l then { l with dirty := false } else l }

/-- The way a new line of a polder takes in its set, and the line it replaces (R337-R339). None: it does not allocate, as
when a lowered quota leaves the polder more lines than it allows (R341). -/
def chooseWay (s : State) (n tag polder : Nat) (p : Polder) : Option (Nat × Option Line) :=
  let x := s.slice n
  let set := x.setOf tag
  let inSet := x.lines.filter fun l => x.setOf l.tag == set
  let quota := s.sliceQuota p
  if quota = 0 then none
  else if x.held polder < quota then
    match (List.range 16).find? fun w => !inSet.any fun l => l.way == w with
    | some w => some (w, none)
    | none =>
      let v := plruVictim (x.plru.get 0 set)
      some (v, inSet.find? fun l => l.way == v)
  else if quota < x.held polder then none
  else
    match inSet.reverse.find? fun l => l.polder == polder with
    | some l => some (l.way, some l)
    | none => none

/-- Allocates a line, replacing and writing back as needed; leaves the slice as it is where it may not (R337, R338). -/
def allocate (s : State) (n tag polder : Nat) (p : Polder) (data : Bytes) (dirty : Bool) : State × Bool :=
  match s.chooseWay n tag polder p with
  | none => (s, false)
  | some (w, victim) =>
    let s := match victim with
      | some l => (s.writeBack l).setSlice n ((s.slice n).removeLine l.tag)
      | none => s
    (s.setSlice n ((s.slice n).useLine { tag := tag, way := w, polder := polder, dirty := dirty, data := data }), true)

/-- Reads 128 bytes of a line from memory: four narrow sectors on a near channel, one full page read on a board
channel (chapter 08). -/
def fetchLine (s : State) (tag : Nat) : State × ReadOut :=
  let a := tag * 128
  if a < boardBase then
    (List.range 4).foldl (fun (acc : State × ReadOut) j =>
      let (s, r) := acc.1.narrowRead (a + 32 * j)
      (s, ⟨acc.2.bytes ++ r.bytes, acc.2.bad.or r.bad⟩)) (s, ⟨[], none⟩)
  else s.fullRead a 128 1

/-- A read within one line through its home slice (R333, R337). `alloc`: the requester's policy (Table 8-1). -/
def lineRead (s : State) (dpa len : Nat) (alloc : Bool) : State × ReadOut :=
  let tag := dpa / 128
  let off := dpa % 128
  let n := homeSlice dpa
  match (s.slice n).lookup tag, s.caches n with
  | some l, true =>
    let words := (List.range ((off % 8 + len + 7) / 8)).map (off / 8 + ·)
    let bad := l.poison.any words.contains
    (s.setSlice n ((s.slice n).useLine l),
     ⟨(l.data.drop off).take len, if bad then some .basin else none⟩)
  | _, caching =>
    let (s, r) := s.fetchLine tag
    match r.bad, caching && alloc, s.ownerOf dpa with
    | none, true, some (i, p) => ((s.allocate n tag i p r.bytes false).1, ⟨(r.bytes.drop off).take len, none⟩)
    | b, _, _ => (s, ⟨(r.bytes.drop off).take len, b⟩)

/-- A write within one line through its home slice (R342-R344, R358). -/
def lineWrite (s : State) (dpa : Nat) (bs : Bytes) : State :=
  let tag := dpa / 128
  let off := dpa % 128
  let n := homeSlice dpa
  match (s.slice n).lookup tag, s.caches n with
  | some l, true =>
    let full := fun w => decide (off ≤ 8 * w) && decide (8 * w + 8 ≤ off + bs.length)
    s.setSlice n ((s.slice n).useLine
      { l with data := overlay l.data off bs, dirty := true, poison := l.poison.filter fun w => !full w })
  | _, true =>
    if bs.length = 128 then
      match s.ownerOf dpa with
      | some (i, p) =>
        let (s', ok) := s.allocate n tag i p bs true
        if ok then s' else s.narrowWrite dpa bs
      | none => s
    else s.narrowWrite dpa bs
  | _, false => s.narrowWrite dpa bs

/-- A whole-page write: lines held take the new data and are dirty (R333, R342), memory takes the page (R388). -/
def pageWrite (s : State) (page : Nat) (bs : Bytes) : State :=
  let s := (List.range 32).foldl (fun s i =>
    let tag := page * 32 + i
    let n := homeSlice (tag * 128)
    match (s.slice n).lookup tag with
    | some l => s.setSlice n ((s.slice n).useLine
        { l with data := (bs.drop (128 * i)).take 128, dirty := true, poison := [] })
    | none => s) s
  s.fullPageWrite page bs

/-- Before a reducer operation: the line is written back if dirty and invalidated (R334). -/
def evictLine (s : State) (dpa : Nat) : State :=
  s.dropLines (homeSlice dpa) (fun l => l.tag == dpa / 128) true

/-! ### Polder offsets -/

/-- Reads bytes of a polder from offset `o`, line by line; what is beyond its end is poisoned. -/
def readLines : Nat → State → Polder → Nat → Nat → Bool → State × ReadOut
  | 0, s, _, _, _, _ => (s, ⟨[], none⟩)
  | fuel + 1, s, p, o, len, alloc =>
    if len = 0 then (s, ⟨[], none⟩)
    else
      let k := min len (128 - o % 128)
      match p.dpa o with
      | none => (s, ⟨List.replicate len 0, some .uncorrectable⟩)
      | some a =>
        let (s, r) := s.lineRead a k alloc
        let (s, r') := readLines fuel s p (o + k) (len - k) alloc
        (s, ⟨r.bytes ++ r'.bytes, r.bad.or r'.bad⟩)

def polderRead (s : State) (i o len : Nat) (alloc : Bool) : State × ReadOut :=
  match s.polder? i with
  | some p => readLines (len / 128 + 2) s p o len alloc
  | none => (s, ⟨List.replicate len 0, some .uncorrectable⟩)

/-- The line writes of a polder write: address and bytes, in offset order. -/
def linePieces : Nat → Polder → Nat → Bytes → List (Nat × Bytes)
  | 0, _, _, _ => []
  | fuel + 1, p, o, bs =>
    if bs.isEmpty then []
    else
      let k := 128 - o % 128
      match p.dpa o with
      | none => []
      | some a => (a, bs.take k) :: linePieces fuel p (o + k) (bs.drop k)

/-- Writes bytes of a polder from offset `o`: DPA pages that the write covers whole are whole-page writes (R388, R393),
the rest go line by line. -/
def polderWrite (s : State) (i o : Nat) (bs : Bytes) : State :=
  match s.polder? i with
  | none => s
  | some p =>
    let pieces := linePieces (bs.length / 128 + 2) p o bs
    let pages := ((pieces.filter fun c => c.2.length == 128).map (·.1 / 4096)).eraseDups
    let whole := pages.filter fun g => (List.range 32).all fun j => pieces.any fun c => c.1 == 4096 * g + 128 * j && c.2.length == 128
    let s := whole.foldl (fun s g => s.pageWrite g
      ((List.range 32).flatMap fun j => ((pieces.find? fun c => c.1 == 4096 * g + 128 * j).map (·.2)).getD [])) s
    (pieces.filter fun c => !whole.contains (c.1 / 4096)).foldl (fun s c => s.lineWrite c.1 c.2) s

/-! ### Scratchpad -/

/-- Slice and quarter of a scratchpad-window address (R329). -/
def scratchOf (dpa : Nat) : Option (Nat × Nat) :=
  if scratchBase ≤ dpa && dpa < scratchBase + 64 * 0xC00000 then
    some ((dpa - scratchBase) / 0xC00000, (dpa - scratchBase) % 0xC00000 / 0x300000)
  else none

/-- Bytes of the scratchpad, poisoned where a word is (R357, R358). -/
def scratchRead (s : State) (dpa len : Nat) : ReadOut :=
  match scratchOf dpa with
  | none => ⟨List.replicate len 0, some .uncorrectable⟩
  | some (n, _) =>
    let bad := (s.slice n).badWords.any fun w => decide (dpa / 8 ≤ w) && decide (8 * w < dpa + len)
    ⟨s.mem.bytes dpa len, if bad then some .basin else none⟩

/-- Writes the scratchpad; a poisoned word written whole is clean again (R358). -/
def scratchWrite (s : State) (dpa : Nat) (bs : Bytes) : State :=
  match scratchOf dpa with
  | none => s
  | some (n, _) =>
    let x := s.slice n
    let full := fun w => decide (dpa ≤ 8 * w) && decide (8 * w + 8 ≤ dpa + bs.length)
    let s := s.setSlice n { x with badWords := x.badWords.filter fun w => !full w }
    { s with mem := s.mem.write dpa bs }

/-! ### SECDED -/

/-- One correction in a slice: counted, the first of each second of TBASE reported (R353-R356, Table 8-4). A refetch of a
clean line is counted as a data-bit correction (R356) and reported with kind 1. -/
def noteBasinCorrected (s : State) (n quarter : Nat) (scratch check refetch : Bool) (word syndrome dpa : Nat) : State :=
  let x := s.slice n
  let fire := x.correctedEv.last != some s.second
  let ev : SecondState := if fire then { last := some s.second, since := 0 }
    else { x.correctedEv with since := satInc 65535 x.correctedEv.since }
  let x' := if check then { x with checkOnly := x.checkOnly + 1, correctedEv := ev }
    else { x with corrected := x.corrected + 1, correctedEv := ev }
  let s := s.setSlice n x'
  if fire then
    s.raise 0x0601 sevCorrected (sliceUnit n)
      [(2, quarter), (1, natOf scratch), (1, natOf (check || refetch)), (19, word), (8, syndrome), (1, 0), (48, dpa),
       (16, satInc 65535 x.correctedEv.since)]
  else s

/-- An uncorrectable word (R357). -/
def noteBasinUncorrectable (s : State) (n quarter : Nat) (scratch : Bool) (word syndrome dpa owner : Nat) : State :=
  let x := s.slice n
  (s.setSlice n { x with uncorrectable := x.uncorrectable + 1 }).raise 0x0602 sevFailed (sliceUnit n)
    [(2, quarter), (1, natOf scratch), (1, 0), (19, word), (8, syndrome), (1, 0), (48, dpa), (16, owner)]

/-- Faults the SECDED code finds in a line held in slice `n` (R353-R357). A clean line with a double error is dropped,
to be fetched again (R356). -/
def lineFaults (s : State) (n tag : Nat) (faults : List WordFault) : State :=
  faults.foldl (fun s f =>
    let x := s.slice n
    match x.lookup tag with
    | none => s
    | some l =>
      let set := x.setOf tag
      let q := x.quarterOfSet set
      let word := (set % 1536) * 256 + l.way * 16 + f.word % 16
      let dpa := tag * 128 + 8 * (f.word % 16)
      if !f.double then s.noteBasinCorrected n q false f.check false word f.syndrome dpa
      else if !l.dirty then
        let s := s.setSlice n (x.removeLine tag)
        s.noteBasinCorrected n q false false true word f.syndrome dpa
      else
        let s := s.setSlice n { x with lines := x.lines.map fun m =>
          if m.tag == tag then { m with poison := (f.word % 16 :: m.poison).eraseDups } else m }
        s.noteBasinUncorrectable n q false word f.syndrome dpa (polderUnit l.polder)) s

/-- SECDED errors in a line of the scratchpad window (R353, R354, R357). -/
def windowFaults (s : State) (a : Nat) (faults : List WordFault) : State :=
  match scratchOf a with
  | none => s
  | some (n, quarter) =>
    faults.foldl (fun s f =>
      let dpa := alignDown a 128 + 8 * (f.word % 16)
      let word := (dpa - scratchBase) % 0x300000 / 8
      if f.double then
        let x := s.slice n
        (s.setSlice n { x with badWords := (dpa / 8 :: x.badWords).eraseDups }).noteBasinUncorrectable n quarter true word f.syndrome dpa 0
      else s.noteBasinCorrected n quarter true f.check false word f.syndrome dpa) s

end State

end Sys2Proof.Machine
end

