-- ==== Sys2Proof/Machine/Kymal.lean ====
section
/-! DEFINITION. The Kymal mailbox: entries, intake, judging, replies, leases, guards and generations (chapters 03, 04). -/

namespace Sys2Proof.Machine

/-! ### Status codes (Table 3-6) -/

def stOk : Nat := 0x0000
def stAccepted : Nat := 0x0001
def stBadOpcode : Nat := 0x0010
def stBadField : Nat := 0x0011
def stNotOwner : Nat := 0x0020
def stStaleGuard : Nat := 0x0021
def stConflict : Nat := 0x0022
def stNoResource : Nat := 0x0030
def stState : Nat := 0x0031
def stBusy : Nat := 0x0032
def stDenied : Nat := 0x0040
def stVersion : Nat := 0x0041
def stInternal : Nat := 0x00FF

/-- "None": the holder detail when there is none (Table 3-6). -/
def noHolder : Nat := 0xFFFFFFFF

/-- The running Kymal version (R152). -/
def kymalVersion : Nat := 0x0302

/-- ST_STATE detail: scope and code (R145). -/
def stateDetail (scope code : Nat) : Nat := scope * 0x10000 + code

/-- A failed check: status, detail, result bytes. -/
structure Fail where
  status : Nat
  detail : Nat := 0
  result : Bytes := []
deriving DecidableEq, Repr

def failState (scope code : Nat) : Option Fail := some { status := stState, detail := stateDetail scope code }

end Sys2Proof.Machine

namespace Sys2Proof

/-! ### Paths -/

/-- The master's holder number: function, or 128 for the sideband. -/
def Path.master : Path → Nat
  | .queue f _ => f
  | .urgent f => f
  | .sideband => 128

/-- Intake position (R76). -/
def Path.position : Path → Nat
  | .queue f q => 5 * f + q
  | .urgent f => 5 * f + 4
  | .sideband => 640

/-- The path of an intake position. -/
def pathOf (pos : Nat) : Path :=
  if pos ≥ 640 then .sideband else if pos % 5 = 4 then .urgent (pos / 5) else .queue (pos / 5) (pos % 5)

def Path.isUrgent : Path → Bool
  | .urgent _ => true
  | _ => false

/-! ### Command fields (R137): offsets are those of the 128-byte entry -/

namespace KCmd

def master (k : KCmd) : Nat := k.path.master
def u8 (k : KCmd) (off : Nat) : Nat := fieldAt k.payload (off - 16) 1
def u16 (k : KCmd) (off : Nat) : Nat := fieldAt k.payload (off - 16) 2
def u32 (k : KCmd) (off : Nat) : Nat := fieldAt k.payload (off - 16) 4
def u64 (k : KCmd) (off : Nat) : Nat := fieldAt k.payload (off - 16) 8
def ind (k : KCmd) : Bool := bitOf k.flags.toNat 0
def inl (k : KCmd) : Bool := bitOf k.flags.toNat 1
def fence (k : KCmd) : Bool := bitOf k.flags.toNat 2
def bufLen (k : KCmd) : Nat := k.u32 120
def bufAddr (k : KCmd) : Nat := k.u64 112
def isPf (k : KCmd) : Bool := k.master == 0
def isVf (k : KCmd) : Bool := decide (1 ≤ k.master) && decide (k.master ≤ 127)
def isSideband (k : KCmd) : Bool := k.master == 128

/-- Parses a 128-byte entry: opcode and the rest (Table 3-1). -/
def parse (path : Path) (raw ext : Bytes) (a : Answers) : Nat × KCmd :=
  (fieldAt raw 0 2,
   { path := path, flags := BitVec.ofNat 16 (fieldAt raw 2 2), seq := BitVec.ofNat 32 (fieldAt raw 4 4),
     guard := BitVec.ofNat 64 (fieldAt raw 8 8), payload := fitBytes 112 (raw.drop 16), ext := ext, answers := a })

end KCmd

end Sys2Proof

namespace Sys2Proof.Machine

/-! ### Static properties of a command (Table 4-2) and its judgement functions -/

/-- Primary resource of a command. -/
inductive Primary where
  /-- The issuing master's own Kymal state. -/
  | own
  /-- A query that names no single resource. -/
  | none
  /-- A resource. -/
  | res
deriving DecidableEq, Repr

inductive LeaseNeed where
  | none | shared | excl
deriving DecidableEq, Repr

/-- What a command does once its checks pass. -/
structure Effect where
  state : State
  result : Bytes := []
  /-- Detail of the ST_OK reply. -/
  detail : Nat := 0
  /-- The resource a creating command created (R143, R144). -/
  created : Option Nat := Option.none
  /-- Data that follow the reply: the indirect buffer, or the sideband message's rest (R161). -/
  data : Bytes := []
  /-- A failure known only once carried out (a digest, a signature): status and detail. -/
  fail : Option Fail := Option.none
  /-- The command is accepted, then replied, this time (LEASE_BREAK, R112). -/
  deferred : Bool := false
  /-- A command of mode S whose reply waits for a handshake: no ST_ACCEPTED (R815). -/
  silent : Bool := false
  /-- Accepted work that is already at its end when it is judged. -/
  outcome : Option Finish := Option.none

/-- One command: its row of Table 4-2, its layout, and the functions that judge and carry it out. -/
structure Cmd where
  opcode : Nat
  /-- Kymal minor version that brought it (R153). -/
  minor : Nat := 0
  primary : Primary
  lease : LeaseNeed := .none
  /-- Mode A: accepted, then replied. -/
  accepted : Bool := false
  pf : Bool := true
  vf : Bool := true
  sb : Bool := true
  inU : Bool := true
  inS : Bool := true
  inL : Bool := false
  urgent : Bool := false
  /-- Listed payload bytes: offset, length, mask of the bits the layout names. -/
  layout : List (Nat × Nat × Nat) := []
  /-- The resource it acts on. -/
  ref : State → KCmd → Nat := fun _ _ => 0
  /-- Byte offsets of fields out of range (check 4). -/
  bad : State → KCmd → List Nat := fun _ _ => []
  /-- Resources it names that a VF must have been assigned (R141), and further denials (check 5). -/
  names : State → KCmd → List Nat := fun _ _ => []
  denied : State → KCmd → Bool := fun _ _ => false
  /-- What a command that fails check 4 leaves (R811). -/
  onBad : State → KCmd → State := fun s _ => s
  /-- Further checks, by their place in Table 3-3. -/
  check6 : State → KCmd → Option Fail := fun _ _ => Option.none
  check7 : State → KCmd → Option Fail := fun _ _ => Option.none
  check9 : State → KCmd → Option Fail := fun _ _ => Option.none
  check10 : State → KCmd → Option Fail := fun _ _ => Option.none
  check11 : State → KCmd → Option Fail := fun _ _ => Option.none
  /-- It creates its primary resource (R143): R23 and the lease check do not apply to it. -/
  creates : Bool := false
  /-- It changes its resource although it needs no exclusive lease on it (R91). -/
  alters : Bool := false
  /-- Further resources that it changes (R104). -/
  also : State → KCmd → List Nat := fun _ _ => []
  /-- Not held back by a running command on the resource (R90). -/
  ignoresTransition : Bool := false
  /-- Why the device cannot complete the command inside, as EV_WARDEN_INTERNAL gives it; 0: it can (R89, DESIGN CHOICE, log entry 7). -/
  internal : State → KCmd → Nat := fun _ k => k.answers.internal
  effect : State → KCmd → Effect
  /-- The end of an accepted command's work: what it leaves and answers, or nothing while it is not at its end.
  By default the steps that carry the work forward have recorded the outcome. -/
  finish : State → Running → Answers → Option (State × Finish) := fun s r _ => r.outcome.map fun f => (s, f)

/-! ### Check 4: layout -/

/-- Mask of the bits of payload byte `off` that the layout names; bytes 112-127 hold the descriptor when ind is 1. -/
def layoutMask (c : Cmd) (k : KCmd) (off : Nat) : Nat :=
  if k.ind && decide (112 ≤ off) then (if off < 124 then 0xFF else 0)
  else
    match c.layout.find? fun e => decide (e.1 ≤ off) && decide (off < e.1 + e.2.1) with
    | some e => e.2.2 / 256 ^ (off - e.1) % 256
    | Option.none => 0

/-- Offset of the field that payload byte `off` belongs to; a byte in no field stands for itself. -/
def fieldStart (c : Cmd) (k : KCmd) (off : Nat) : Nat :=
  if k.ind && decide (112 ≤ off) then off
  else
    match c.layout.find? fun e => decide (e.1 ≤ off) && decide (off < e.1 + e.2.1) with
    | some e => e.1
    | Option.none => off

/-- Offsets of non-zero reserved payload bits, by field (R11, R137). -/
def reservedBad (c : Cmd) (k : KCmd) : List Nat :=
  (List.range 112).filterMap fun i =>
    let off := 16 + i
    if Nat.land (byteAt k.payload i) (255 - layoutMask c k off) = 0 then Option.none else some (fieldStart c k off)

/-- Flags: reserved bits, ind on the sideband (R118), inline elsewhere (R119), inline data too long (R1036). -/
def flagsBad (k : KCmd) : List Nat :=
  if k.flags.toNat / 8 != 0 || (k.isSideband && k.ind) || (!k.isSideband && k.inl)
      || (k.isSideband && decide (k.ext.length > 896)) then [2] else []

/-- Indirect buffer descriptor: aligned address, length a multiple of 8 from 8 to 65,536. -/
def bufferBad (k : KCmd) : List Nat :=
  if k.ind then
    (if k.bufAddr % 8 = 0 then [] else [112])
      ++ (if k.bufLen % 8 = 0 && decide (8 ≤ k.bufLen) && decide (k.bufLen ≤ 65536) then [] else [120])
  else []

/-- A command whose primary is "own" or "none" carries guard zero (R142). -/
def guardBad (c : Cmd) (k : KCmd) : List Nat :=
  if c.primary != .res && k.guard != 0 then [8] else []

def minOffset : List Nat → Option Nat
  | [] => Option.none
  | a :: t => match minOffset t with
    | Option.none => some a
    | some b => some (min a b)

/-! ### Sequence, replies and rings -/

def QPair.cqSize (p : QPair) : Nat := 2 ^ p.cqLog
def QPair.rqSize (p : QPair) : Nat := 2 ^ p.rqLog

/-- A reset pair: head, tail and reply index at 0, phase 1 (R1033, R157). -/
def QPair.cleared (p : QPair) : QPair :=
  { p with tail := 0, head := 0, ridx := 0, phase := true, rhead := 0, unread := 0, failed := false }

namespace State

def kymFn (s : State) (f : Nat) : KymFn := s.kym.fns.get {} f

def setKymFn (s : State) (f : Nat) (k : KymFn) : State := { s with kym := { s.kym with fns := s.kym.fns.set f k } }

def pair? (s : State) (f q : Nat) : Option QPair := s.kym.pairs.get? (4 * f + q)

def setPair (s : State) (f q : Nat) (p : QPair) : State :=
  { s with kym := { s.kym with pairs := s.kym.pairs.set (4 * f + q) p } }

def seqState (s : State) (p : Path) : SeqState := s.kym.seqs.get {} p.position

def setSeq (s : State) (p : Path) (q : SeqState) : State :=
  { s with kym := { s.kym with seqs := s.kym.seqs.set p.position q } }

/-- Version in force for a master: none while its HELLO gate is shut (R70, R71). -/
def version? (s : State) (p : Path) : Option Nat :=
  match p with
  | .sideband => s.kym.sidebandVersion
  | .queue f _ | .urgent f => (s.kymFn f).version

/-- Commands of a path that still owe their final reply. -/
def owed (s : State) (p : Path) : Nat :=
  (s.kym.running.filter fun r => decide (r.cmd.path = p) && !r.orphan).length
    + (s.kym.heldReplies.filter fun r => decide (r.path = p)).length

/-- Accepted commands of a master that owe final replies: those running, and those whose final reply waits (R92). -/
def accepted (s : State) (master : Nat) : Nat :=
  (s.kym.running.filter fun r => decide (r.cmd.path.master = master) && !r.orphan && !r.modeS).length
    + (s.kym.heldReplies.filter fun r => decide (r.path.master = master) && r.owes.isSome).length

/-- The warden can write replies: it is not halted or restarting, and its clock runs (R58, R62). -/
def wardenWrites (s : State) : Bool :=
  s.kym.warden != .halted && s.kym.warden != .restarting && !s.islandHalted islWarden

end State

/-- The 64-byte reply entry (Table 3-2). -/
def replyBytes (r : Reply) (cqHead : Nat) (phase : Bool) : Bytes :=
  toLE 2 r.opcode ++ toLE 2 r.status ++ toLE 4 r.seq.toNat ++ toLE 2 (cqHead % 4096)
    ++ toLE 2 (natOf phase + 2 * natOf r.final + 4 * natOf r.dup + 8 * natOf r.gap)
    ++ toLE 4 r.detail ++ toLE 8 r.gen ++ fitBytes 40 r.result

namespace State

/-- A reply waits: for its pair to be reset or enabled (R157, R1033), or for the warden to run (R58). -/
def holdReply (s : State) (r : Reply) : State := { s with kym := { s.kym with heldReplies := s.kym.heldReplies ++ [r] } }

/-- Writes a reply into its ring, the urgent mailbox or a sideband message (R72, R74, R117). A reply whose pair is
absent or failed waits (R157, R1033), and none is written while the warden is halted (R58). The urgent mailbox and the
sideband have no command ring and no reply ring: their cq_head is 0, and the sideband's phase is 1 as R117 gives it for
the mailbox (DESIGN CHOICE, log entry 61). -/
def sendReply (s : State) (r : Reply) : State :=
  if !s.wardenWrites then s.holdReply r else
  match r.path with
  | .sideband => s.emit (.reply .sideband 0 (replyBytes r 0 true))
  | .urgent f =>
    let b := replyBytes { r with final := true } 0 true
    let fn := s.kymFn f
    (s.setKymFn f { fn with urgRply := b, urgBusy := false, urgDone := true }).emit (.reply r.path 0 b)
  | .queue f q =>
    match s.pair? f q with
    | some p =>
      if p.failed then s.holdReply r
      else
        let i := (p.ridx + 1) % p.rqSize
        let s' := s.setPair f q { p with ridx := i, unread := p.unread + 1, phase := if i = 0 then !p.phase else p.phase }
        (s'.emit (.reply r.path p.ridx (replyBytes r p.head p.phase))).raiseVector f p.vector
    | none => s.holdReply r

/-- Records the final status of a command, and its detail, in its queue's history (R83). -/
def noteStatus (s : State) (p : Path) (seq : BitVec 32) (status detail : Nat) : State :=
  let q := s.seqState p
  s.setSeq p { q with history := q.history.map fun h =>
    if h.seq = seq && h.status.isNone then { h with status := some status, detail := detail } else h }

/-- Takes the expected sequence: the expectation advances and the history gains an entry, 64 at most (R82, R83). -/
def takeSeq (s : State) (p : Path) (seq : BitVec 32) (opcode : Nat) : State :=
  let q := s.seqState p
  s.setSeq p { expected := some (seq + 1), history := (⟨seq, opcode, none, 0⟩ :: q.history).take 64 }

/-- Final reply: recorded in the history and sent. -/
def finalReply (s : State) (r : Reply) : State := (s.noteStatus r.path r.seq r.status r.detail).sendReply r

/-! ### Leases (R94-R102) -/

def holders (s : State) (ref : Nat) : List Lease := s.kym.leases.filter fun l => l.ref == ref

def leaseOf (s : State) (ref holder : Nat) : Option Lease :=
  s.kym.leases.find? fun l => l.ref == ref && l.holder == holder

def exclHolder (s : State) (ref : Nat) : Option Nat :=
  (s.kym.leases.find? fun l => l.ref == ref && l.excl).map (·.holder)

/-- The lease a command needs is held (R94, R95). -/
def holdsLease (s : State) (ref holder : Nat) (need : LeaseNeed) : Bool :=
  match need, s.leaseOf ref holder with
  | .none, _ => true
  | .shared, some _ => true
  | .excl, some l => l.excl
  | _, none => false

def dropLease (s : State) (ref holder : Nat) : State :=
  { s with kym := { s.kym with leases := s.kym.leases.filter fun l => !(l.ref == ref && l.holder == holder) } }

/-- Grants, or changes the kind of, a lease. -/
def grantLease (s : State) (ref holder : Nat) (excl : Bool) : State :=
  let s := s.dropLease ref holder
  { s with kym := { s.kym with leases := s.kym.leases ++ [⟨ref, holder, excl⟩] } }

/-- Every lease on a resource that is deleted (R100). -/
def dropLeasesOn (s : State) (ref : Nat) : State :=
  { s with kym := { s.kym with leases := s.kym.leases.filter fun l => !(l.ref == ref) } }

/-- Leases that running commands will grant: a staging that succeeds gives its master the new entry's (R143). -/
def leasesToCome (s : State) : Nat := s.kym.running.countP fun r => r.opcode == 0x1401

/-- At most 32,768 leases (R101). -/
def leaseRoom (s : State) (ref holder : Nat) : Bool :=
  (s.leaseOf ref holder).isSome || decide (s.kym.leases.length + s.leasesToCome < 32768)

def genLimit : Nat := 2 ^ 40 - 1

/-- Increments a resource's generation (R104); the count saturates (R1023). -/
def bumpGen (s : State) (ref : Nat) : State :=
  { s with kym := { s.kym with genCount := s.kym.genCount.set ref (satInc genLimit (s.kym.genCount.get 1 ref)) } }

/-- Records how an accepted command ended; its final reply is still owed. -/
def endRunning (s : State) (opcode ref : Nat) (f : Finish) : State :=
  { s with kym := { s.kym with running := s.kym.running.map fun r =>
      if r.opcode = opcode && r.ref = ref && r.outcome.isNone then { r with outcome := some f } else r } }

/-- A command of this opcode is running on a resource and has not ended. -/
def runningOn (s : State) (opcode ref : Nat) : Bool :=
  s.kym.running.any fun r => r.opcode = opcode && r.ref = ref && r.outcome.isNone

def findRunning (s : State) (opcode ref : Nat) : Option Running :=
  s.kym.running.find? fun r => r.opcode = opcode && r.ref = ref && r.outcome.isNone

/-- A resource is in transition from a running command, until its final reply is written (R90). -/
def inTransition (s : State) (ref : Nat) : Bool :=
  s.kym.running.any (fun r => r.ref == ref) || s.kym.heldReplies.any (fun r => r.owes == some ref)

end State

/-! ### The order of checks (Table 3-3) -/

def deviceCode (d : DeviceState) : Nat :=
  match d with
  | .cold => 0 | .booting => 1 | .unconfigured => 2 | .service => 3 | .lost => 4

def wardenCode (w : WardenState) : Nat :=
  match w with
  | .running => 0 | .activating => 1 | .halted => 2 | .restarting => 3

/-- Check 1: what a sequence that is not taken answers (R83, R85, R86). A duplicate's reply repeats the detail of the final
reply (R136) and carries no result (DESIGN CHOICE, log entry 61). -/
def seqCheck (s : State) (opcode : Nat) (k : KCmd) : Option Reply :=
  let q := s.seqState k.path
  match q.history.find? fun h => h.seq == k.seq with
  | some h =>
    if h.opcode = opcode then
      some { path := k.path, opcode := opcode, seq := k.seq, dup := true,
             status := h.status.getD stAccepted, final := h.status.isSome, detail := h.detail }
    else
      some { path := k.path, opcode := opcode, seq := k.seq, dup := true, status := stConflict, detail := noHolder }
  | none =>
    match q.expected with
    | none => none
    | some e =>
      if e = k.seq then none
      else some { path := k.path, opcode := opcode, seq := k.seq, gap := true, status := stBadField, detail := e.toNat }

/-- Check 2: the HELLO gate (R70, R71); and R153 for a command the negotiated version does not define. -/
def helloCheck (s : State) (c : Cmd) (k : KCmd) : Option Fail :=
  if c.opcode = 0x0101 then none
  else
    match s.version? k.path with
    | none => some { status := stVersion, detail := kymalVersion }
    | some v => if c.minor ≤ v % 256 then none else some { status := stBadOpcode }

/-- Check 4. -/
def fieldCheck (s : State) (c : Cmd) (k : KCmd) : Option Fail :=
  (minOffset (flagsBad k ++ guardBad c k ++ bufferBad k ++ reservedBad c k ++ c.bad s k)).map
    fun off => { status := stBadField, detail := off }

/-- The primary resource whose lease a VF needs: the PF must have assigned it to the VF (Table 3-3, and the example of
chapter 06 after a cold boot). LEASE_RELEASE gives up a lease whatever the assignment. -/
def leased (s : State) (c : Cmd) (k : KCmd) : List Nat :=
  if c.primary = .res && c.lease != .none && c.opcode != 0x0106 then [c.ref s k] else []

/-- Check 5: masters, urgent capability (R115), assignment (R102, R141). -/
def masterCheck (s : State) (c : Cmd) (k : KCmd) : Option Fail :=
  if !((k.isPf && c.pf) || (k.isVf && c.vf) || (k.isSideband && c.sb))
      || (k.path.isUrgent && !c.urgent)
      || (k.isVf && (c.names s k ++ leased s c k).any fun r => s.assignedFn r != k.master)
      || c.denied s k then
    some { status := stDenied }
  else none

/-- Check 6, the device's part (R146). -/
def deviceCheck (s : State) (c : Cmd) : Option Fail :=
  let ok := match s.boot.device with
    | .unconfigured => c.inU
    | .service => c.inS
    | .lost => c.inL
    | .cold | .booting => false
  if ok then none else failState 0 (deviceCode s.boot.device)

/-- A master's lease on a resource is being broken (R109): it holds one, and a pending break is another's. -/
def State.beingBroken (s : State) (ref master : Nat) : Bool :=
  (s.leaseOf ref master).isSome && (s.kym.breaks.get [] ref).any fun b => b.breaker != master

/-- The lease that a command of a master needs on a resource, or the break pending there (R94, R95, R109, R110): `named`
says that it is a LEASE_ACQUIRE or LEASE_BREAK of the resource. The holders being broken find their leases ended, and only
every other master finds the resource busy. -/
def leaseFail (s : State) (ref master : Nat) (need : LeaseNeed) (named : Bool) : Option Fail :=
  if (s.kym.breaks.get [] ref).isEmpty then
    if s.holdsLease ref master need then none
    else some { status := stNotOwner, detail := (s.exclHolder ref).getD noHolder }
  else if s.beingBroken ref master then
    if need = .none then none else some { status := stNotOwner, detail := noHolder }
  else if need = .none && !named then none
  else some { status := stBusy, detail := 2 }

/-- Check 7 (R87, R140). -/
def leaseCheck (s : State) (c : Cmd) (k : KCmd) : Option Fail :=
  if c.primary = .res ∧ c.creates = false then
    leaseFail s (c.ref s k) k.master c.lease (c.opcode = 0x0105 || c.opcode = 0x0107)
  else none

/-- Check 8: the guard (R107). -/
def guardCheck (s : State) (c : Cmd) (k : KCmd) : Option Fail :=
  let g := s.generation (c.ref s k)
  if c.primary != .res || k.guard = 0 || k.guard.toNat = g then none
  else some { status := stStaleGuard, detail := g % 2 ^ 32 }

/-- Check 9: an activation (R130) or a running command on the resource (R90). Where both hold, the detail is that of the
activation (DESIGN CHOICE, log entry 61). -/
def busyCheck (s : State) (c : Cmd) (k : KCmd) : Option Fail :=
  if s.kym.activating.isSome && c.accepted then some { status := stBusy, detail := 1 }
  else if c.primary = .res && !c.ignoresTransition && s.inTransition (c.ref s k) then
    some { status := stBusy, detail := 3 }
  else none

/-- The command increments its resource's generation: it changes or creates it (R91, R104, R144). -/
def Cmd.changes (c : Cmd) : Bool := c.creates || c.alters || c.lease == .excl

/-- The limit of commands that owe final replies: 64 a master, 4 for the sideband (R92). -/
def acceptedRoom (s : State) (master : Nat) : Bool :=
  decide (s.accepted master < if master = 128 then 4 else 64)

/-- Check 11, the shared part: generations (R1023), accepted commands (R92), leases of a creation (R101). -/
def capacityCheck (s : State) (c : Cmd) (k : KCmd) : Option Fail :=
  let ref := c.ref s k
  if (c.changes && (ref :: c.also s k).any fun r => decide (s.kym.genCount.get 1 r ≥ State.genLimit))
      || (c.accepted && !acceptedRoom s k.master)
      || (c.creates && !s.leaseRoom ref k.master) then
    some { status := stNoResource }
  else none

/-- The first failing check from 2 on (R87). -/
def judge (c : Cmd) (k : KCmd) (s : State) : Option Fail :=
  helloCheck s c k
    |>.or (fieldCheck s c k)
    |>.or (masterCheck s c k)
    |>.or (deviceCheck s c)
    |>.or (c.check6 s k)
    |>.or (leaseCheck s c k)
    |>.or (c.check7 s k)
    |>.or (guardCheck s c k)
    |>.or (busyCheck s c k)
    |>.or (c.check9 s k)
    |>.or (c.check10 s k)
    |>.or (capacityCheck s c k)
    |>.or (c.check11 s k)

/-- The generation a reply reports: that of the primary resource after the command, zero where it names none
(Table 3-2). -/
def replyGen (s : State) (c : Cmd) (k : KCmd) (e : Option Nat) : Nat :=
  match e with
  | some r => s.generation r
  | none => if c.primary = .res ∧ refValid (c.ref s k) = true then s.generation (c.ref s k) else 0

namespace State

/-- A command that failed a check: its reply, nothing else (R88). -/
def replyFail (s : State) (c : Cmd) (k : KCmd) (f : Fail) : State :=
  s.finalReply { path := k.path, opcode := c.opcode, seq := k.seq, status := f.status, detail := f.detail,
                 gen := replyGen s c k none, result := f.result }

/-- Sends the data that follow a reply. -/
def sendData (s : State) (p : Path) (d : Bytes) : State := if d.isEmpty then s else s.emit (.replyData p d)

/-- An urgent command taken and not final: KYM.URG_STS.busy (Table 3-5, R117). -/
def holdUrgent (s : State) (p : Path) : State :=
  match p with
  | .urgent f => s.setKymFn f { s.kymFn f with urgBusy := true }
  | .queue .. | .sideband => s

/-- A command that passed every check (R88, R91, R93, R112, R143, R144). -/
def carryOut (s : State) (c : Cmd) (k : KCmd) : State :=
  let ref := c.ref s k
  let e := c.effect s k
  match e.fail with
  | some f => e.state.replyFail c k f
  | none =>
    let target := e.created.getD ref
    let s1 := if e.created.isSome then e.state.grantLease target k.master true else e.state
    let s2 := (c.also s k).foldl bumpGen (if c.changes then s1.bumpGen target else s1)
    if c.accepted || e.deferred || e.silent then
      let r : Running := { opcode := c.opcode, cmd := k, ref := target, outcome := e.outcome, modeS := e.silent }
      let s3 := { s2 with kym := { s2.kym with running := s2.kym.running ++ [r] } }
      if k.path.isUrgent || e.silent then s3.holdUrgent k.path
      else s3.sendReply { path := k.path, opcode := c.opcode, seq := k.seq, status := stAccepted, final := false,
                          gen := s3.generation target }
    else
      (s2.finalReply { path := k.path, opcode := c.opcode, seq := k.seq, status := stOk, detail := e.detail,
                       gen := replyGen s2 c k (some target |>.filter fun _ => c.primary = .res),
                       result := e.result }).sendData k.path e.data

/-- The warden could not complete a command (R89): no effect, ST_INTERNAL and EV_WARDEN_INTERNAL. -/
def replyInternal (s : State) (c : Cmd) (k : KCmd) : State :=
  (s.raise 0x0102 sevDegraded wardenUnit
    [(16, c.opcode), (8, k.master), (8, 0), (32, k.seq.toNat), (8, c.internal s k)]).replyFail c k
      { status := stInternal }

/-- Judges a command the warden has taken, and carries it out (R80-R88). -/
def runCmd (s : State) (c : Cmd) (k : KCmd) : State :=
  match seqCheck s c.opcode k with
  | some r => s.sendReply { r with gen := replyGen s c k none }
  | none =>
    let s := s.takeSeq k.path k.seq c.opcode
    match judge c k s with
    | some f =>
      let s := if (helloCheck s c k).isNone && (fieldCheck s c k).isSome then c.onBad s k else s
      s.replyFail c k f
    | none => if c.internal s k = 0 then s.carryOut c k else s.replyInternal c k

/-- The warden takes commands: boot complete, RUNNING or with an activation judged, its clock running (R62, R246), and the
host island's, through which every path comes (R55; DEDUCED, log entry 64). -/
def wardenTakes (s : State) : Bool :=
  decide (s.boot.step ≥ 16) && (s.kym.warden == .running) && !s.islandHalted islWarden && !s.islandHalted islHost
    && s.boot.device != .cold && s.boot.device != .booting

/-- Intake takes nothing from a pair that is absent, disabled or failed (R121, R123, R1033) or whose reply ring has not two
free entries past those owed (R73), from an urgent mailbox whose command is not final (R116), nor a fenced command while an
earlier one owes its final reply (R78). -/
def pathOpen (s : State) (k : KCmd) : Bool :=
  (match k.path with
   | .queue f q => match s.pair? f q with
     | some p => !p.failed && decide (p.unread + s.owed k.path + 2 ≤ p.rqSize)
     | none => false
   | .urgent f => !(s.kymFn f).urgBusy
   | .sideband => true)
  && !(k.fence && s.owed k.path != 0)

/-- The warden takes this command from its path now. -/
def takesFrom (s : State) (k : KCmd) : Bool := s.wardenTakes && s.pathOpen k

/-- A Kymal row of the table: the warden runs the command; while it takes none from its path, nothing happens (DESIGN
CHOICE, log entry 3). -/
def kymal (s : State) (c : Cmd) (k : KCmd) : State := if s.takesFrom k then s.runCmd c k else s

end State

end Sys2Proof.Machine
end

