-- ==== Sys2Proof/Machine/Session.lean ====
section
/-! DEFINITION. Kymal groups 0x01 to 0x03: session, leases, standing orders, events and logs (chapters 04, 05). -/

namespace Sys2Proof.Machine

/-- MSI-X vectors of a function: 2,048 on the PF, 64 on a VF (R852). -/
def vectorLimit (f : Nat) : Nat := if f = 0 then 2048 else 64

/-- A bad offset when a condition holds. -/
def badIf (c : Bool) (off : Nat) : List Nat := if c then [off] else []

/-- A unit reference field: valid, and of an admitted class (R21, R22, R1030). -/
def badUnit (u off : Nat) (ok : Nat → Bool) : List Nat := badIf (!(unitValid u && ok (unitClass u))) off

/-! ### HELLO -/

/-- The ASCII bytes of the ordering code (Table 0-2, R6). -/
def orderingCode (sample : Bool) : Bytes :=
  let code : Bytes := [0x47, 0x32, 0x50, 0x2D, 0x33, 0x38, 0x34, 0x41]
  if sample then [0x45, 0x53, 0x20] ++ code else code

/-- The image in a bank of the flash. -/
def State.image (s : State) (b : Nat) : FwImage := if b = 0 then s.flash.bank0 else s.flash.bank1

/-- R152. -/
def negotiated (k : KCmd) : Nat := min (k.u16 16) kymalVersion

def State.setVersion (s : State) (p : Path) (v : Nat) : State :=
  match p with
  | .sideband => { s with kym := { s.kym with sidebandVersion := some v } }
  | .queue f _ | .urgent f => s.setKymFn f { s.kymFn f with version := some v }

/-- EV_DRIVER_TAG records, parts 0-3 in order (R1038). -/
def driverTag (s : State) (k : KCmd) (v : Nat) : State :=
  let unit := if k.isSideband then 0 else functionUnit k.master
  (List.range 4).foldl (fun s p =>
    s.raise 0x0107 sevInfo unit [(2, p), (6, 0), (8, k.master), (16, v), (64, k.u64 (24 + 8 * p))] .log islWarden) s

def helloCmd : Cmd where
  opcode := 0x0101
  primary := .own
  inL := true
  urgent := true
  layout := [(16, 2, 0xFFFF), (18, 2, 0xFFFF), (24, 32, 2 ^ 256 - 1)]
  bad _ k := badIf (k.u16 18 > k.u16 16) 18
  check6 _ k :=
    let v := negotiated k
    if v < k.u16 18 || v < 0x0300 then some { status := stVersion, detail := kymalVersion } else none
  check9 s k :=
    if s.version? k.path != some (negotiated k) && s.accepted k.master != 0 then some { status := stBusy, detail := 3 }
    else none
  effect s k :=
    let v := negotiated k
    { state := (driverTag s k v).setVersion k.path v
      result := toLE 2 v ++ toLE 2 0 ++ toLE 4 (s.image s.boot.bank).version
        ++ fitBytes 12 (orderingCode s.flash.sample) ++ toLE 1 0xB0
        ++ toLE 1 (if k.isSideband then 0xFF else k.master) ++ toLE 1 (deviceCode s.boot.device) ++ toLE 1 0
        ++ toLE 4 s.flash.epoch.toNat ++ toLE 2 s.host.vfs ++ toLE 2 0 ++ toLE 8 (s.follower islWarden) }

def execHello (k : KCmd) (s : State) : Host.Outcome State Fault Refusal := .next (s.kymal helloCmd k)

/-! ### Queues -/

/-- The command was sent on the pair it names. -/
def sentOn (k : KCmd) (q : Nat) : Bool := decide (k.path = .queue k.master q)

def queueCreateCmd : Cmd where
  opcode := 0x0102
  primary := .own
  sb := false
  inL := true
  layout := [(16, 1, 0xFF), (17, 1, 0xFF), (18, 1, 0xFF), (20, 2, 0xFFFF), (24, 8, 2 ^ 64 - 1), (32, 8, 2 ^ 64 - 1)]
  bad _ k := badIf (k.u8 16 < 1 || k.u8 16 > 3) 16 ++ badIf (k.u8 17 < 4 || k.u8 17 > 12) 17
    ++ badIf (k.u8 18 < 4 || k.u8 18 > 12) 18
    ++ badIf (!k.isSideband && decide (k.u16 20 ≥ vectorLimit k.master)) 20
    ++ badIf (k.u64 24 % 4096 != 0) 24 ++ badIf (k.u64 32 % 4096 != 0) 32
  check10 s k := if (s.pair? k.master (k.u8 16)).isSome then some { status := stConflict, detail := noHolder } else none
  effect s k :=
    let p : QPair := { cbase := k.u64 24, rbase := k.u64 32, cqLog := k.u8 17, rqLog := k.u8 18, vector := k.u16 20 }
    { state := (s.setPair k.master (k.u8 16) p).setSeq (.queue k.master (k.u8 16)) {} }

def execQueueCreate (k : KCmd) (s : State) : Host.Outcome State Fault Refusal := .next (s.kymal queueCreateCmd k)

/-- Removes a pair with its doorbell, sequence state and history. -/
def State.dropPair (s : State) (f q : Nat) : State :=
  { s with kym := { s.kym with pairs := s.kym.pairs.erase (4 * f + q), seqs := s.kym.seqs.erase (5 * f + q),
                               rung := s.kym.rung.erase (5 * f + q) } }

def queueDeleteCmd : Cmd where
  opcode := 0x0103
  primary := .own
  sb := false
  inL := true
  urgent := true
  layout := [(16, 1, 0xFF)]
  bad _ k := badIf (k.u8 16 < 1 || k.u8 16 > 3) 16
  denied _ k := sentOn k (k.u8 16)
  check6 s k := if (s.pair? k.master (k.u8 16)).isSome then none else failState 2 0
  check9 s k := if s.owed (.queue k.master (k.u8 16)) = 0 then none else some { status := stBusy, detail := 3 }
  effect s k := { state := s.dropPair k.master (k.u8 16) }

def execQueueDelete (k : KCmd) (s : State) : Host.Outcome State Fault Refusal := .next (s.kymal queueDeleteCmd k)

/-- Sends the final replies that waited for a pair (R157, R1033); what still cannot be written waits on. All are written at
once, whatever the reply ring's size (DESIGN CHOICE, log entry 61). -/
def State.releaseHeld (s : State) (p : Path) : State :=
  let mine := s.kym.heldReplies.filter fun r => decide (r.path = p)
  mine.foldl State.sendReply
    { s with kym := { s.kym with heldReplies := s.kym.heldReplies.filter fun r => !decide (r.path = p) } }

/-- Sends every reply that waited for the warden to run again (R58, R63). -/
def State.releaseAll (s : State) : State :=
  s.kym.heldReplies.foldl State.sendReply { s with kym := { s.kym with heldReplies := [] } }

/-- A pair's head, tail and sequence state cleared, leases and running commands kept, which its new history does not know;
then the replies still owed are written from phase 1 on (R157, R1033). -/
def State.resetPair (s : State) (f q : Nat) (p : QPair) : State :=
  let s := s.setPair f q p.cleared
  let s := { s with kym := { s.kym with
    seqs := s.kym.seqs.erase (5 * f + q), rung := s.kym.rung.erase (5 * f + q)
    running := s.kym.running.map fun (r : Running) => if decide (r.cmd.path = Path.queue f q) then { r with forgotten := true } else r } }
  s.releaseHeld (.queue f q)

def queueResetCmd : Cmd where
  opcode := 0x0104
  primary := .own
  sb := false
  inL := true
  urgent := true
  layout := [(16, 1, 0xFF)]
  bad _ k := badIf (k.u8 16 > 3) 16
  denied _ k := sentOn k (k.u8 16)
  check6 s k := if (s.pair? k.master (k.u8 16)).isSome then none else failState 2 0
  effect s k :=
    match s.pair? k.master (k.u8 16) with
    | some p => { state := s.resetPair k.master (k.u8 16) p, result := toLE 4 (s.owed (.queue k.master (k.u8 16))) }
    | none => { state := s }

def execQueueReset (k : KCmd) (s : State) : Host.Outcome State Fault Refusal := .next (s.kymal queueResetCmd k)

/-! ### Leases -/

/-- A 32-bit resource reference at bytes 16-19. -/
def badRef (k : KCmd) : List Nat := badIf (!refValid (k.u32 16)) 16

/-- Another current holder that forbids the lease asked for (R96-R99). -/
def leaseConflict (s : State) (ref master : Nat) (excl : Bool) : Option Nat :=
  ((s.holders ref).find? fun l => l.holder != master && (excl || l.excl)).map (·.holder)

/-- A resource that comes and goes and does not exist now: its ST_STATE (R23, R1024, Table 4-4). -/
def absent (s : State) (ref : Nat) : Option Fail :=
  let id := refId ref
  match refKind ref with
  | 0 =>
    if (unitClass id = 0x0D && !s.mem.polders.has (unitIndex id))
        || (unitClass id = 0x0E && !s.functionExists (unitIndex id)) then failState 1 0xFFFF else none
  | 2 => if s.inf.caddies.has id then none else failState 3 0
  | 4 => if s.xlat.spaces.has id then none else failState 2 0
  | _ => none

def leaseAcquireCmd : Cmd where
  opcode := 0x0105
  primary := .res
  inL := true
  urgent := true
  ignoresTransition := true
  layout := [(16, 4, 2 ^ 32 - 1), (20, 1, 0xFF)]
  ref _ k := k.u32 16
  bad _ k := badRef k ++ badIf (k.u8 20 > 1) 20
  names _ k := [k.u32 16]
  check6 s k := absent s (k.u32 16)
  check10 s k := (leaseConflict s (k.u32 16) k.master (k.u8 20 == 1)).map fun h => { status := stConflict, detail := h }
  check11 s k := if s.leaseRoom (k.u32 16) k.master then none else some { status := stNoResource }
  effect s k :=
    let ref := k.u32 16
    let excl := k.u8 20 == 1 || s.holdsLease ref k.master .excl
    let s := s.grantLease ref k.master excl
    { state := s, result := toLE 1 (natOf excl) ++ toLE 1 0 ++ toLE 2 (s.holders ref).length }

def execLeaseAcquire (k : KCmd) (s : State) : Host.Outcome State Fault Refusal := .next (s.kymal leaseAcquireCmd k)

/-- An accepted command of a master on a resource that owes its final reply, breaks apart. -/
def State.runningOf (s : State) (ref master : Nat) : Bool :=
  s.kym.running.any (fun r => r.ref == ref && r.cmd.master == master && r.opcode != 0x0107)
    || s.kym.heldReplies.any (fun r => r.owes == some ref && r.path.master == master && r.opcode != 0x0107)

def leaseReleaseCmd : Cmd where
  opcode := 0x0106
  primary := .res
  lease := .shared
  inL := true
  urgent := true
  ignoresTransition := true
  layout := [(16, 4, 2 ^ 32 - 1)]
  ref _ k := k.u32 16
  bad _ k := badRef k
  check6 s k := absent s (k.u32 16)
  check9 s k := if s.runningOf (k.u32 16) k.master then some { status := stBusy, detail := 3 } else none
  effect s k := { state := s.dropLease (k.u32 16) k.master }

def execLeaseRelease (k : KCmd) (s : State) : Host.Outcome State Fault Refusal := .next (s.kymal leaseReleaseCmd k)

/-- Holders other than the breaker. -/
def State.victims (s : State) (ref breaker : Nat) : List Nat :=
  ((s.holders ref).filter fun l => l.holder != breaker).map (·.holder)

/-- The unit an EV_LEASE_BROKEN carries (Table 5-12). -/
def breakUnit (ref : Nat) : Nat := if refKind ref = 0 then refId ref else wardenUnit

/-- A LEASE_BREAK takes effect: the state and the number of leases broken (R113, R114, R158). -/
def State.breakLeases (s : State) (ref breaker : Nat) (take : Bool) : State × Nat :=
  let v := s.victims ref breaker
  let s := v.foldl (fun s h => s.dropLease ref h) s
  let s := if take then s.grantLease ref breaker true else s
  let s := v.foldl (fun s h => s.raise 0x0105 sevNotice (breakUnit ref)
    [(32, ref), (8, breaker), (1, natOf take), (7, 0), (16, v.length)] (if h = 128 then .log else .fn h) islWarden) s
  (s, v.length)

/-- The break waits for accepted commands of the holders (R111). -/
def State.breakWaits (s : State) (ref breaker : Nat) : Bool := (s.victims ref breaker).any (s.runningOf ref)

def leaseBreakCmd : Cmd where
  opcode := 0x0107
  primary := .res
  vf := false
  inL := true
  urgent := true
  ignoresTransition := true
  layout := [(16, 4, 2 ^ 32 - 1), (20, 1, 1)]
  ref _ k := k.u32 16
  bad _ k := badRef k
  check6 s k := (absent s (k.u32 16)).or (if (s.victims (k.u32 16) k.master).isEmpty then failState 2 0 else none)
  check9 s k := if s.breakWaits (k.u32 16) k.master && s.kym.activating.isSome then some { status := stBusy, detail := 1 }
    else none
  check11 s k := if s.breakWaits (k.u32 16) k.master && !acceptedRoom s k.master then some { status := stNoResource }
    else none
  effect s k :=
    let ref := k.u32 16
    let take := bitOf (k.u8 20) 0
    if s.breakWaits ref k.master then
      { state := { s with kym := { s.kym with
          breaks := s.kym.breaks.set ref (s.kym.breaks.get [] ref ++ [⟨k.master, take, k.path, k.seq⟩]) } }
        deferred := true }
    else
      let (s, n) := s.breakLeases ref k.master take
      { state := s, result := toLE 2 n }

def execLeaseBreak (k : KCmd) (s : State) : Host.Outcome State Fault Refusal := .next (s.kymal leaseBreakCmd k)

/-- BAR2 mappings of a function to a polder, unmapped with status 2 (R847). -/
def State.unmapBar2 (s : State) (polder : Nat) (keepFn : Nat) : State :=
  let drop := fun (m : Bar2Map) => if m.enable && m.polder == polder then { m with enable := false, status := 2 } else m
  let fns := s.host.fns.map fun f (h : HostFn) =>
    if f = keepFn then h else { h with bar2 := h.bar2.map fun _ m => drop m }
  { s with host := { s.host with fns := fns } }

def resourceAssignCmd : Cmd where
  opcode := 0x0108
  primary := .res
  vf := false
  inL := true
  layout := [(16, 4, 2 ^ 32 - 1), (20, 2, 0xFFFF)]
  ref _ k := k.u32 16
  bad _ k := badRef k ++ badIf (k.u16 20 > 127) 20
  check6 s k := if refKind (k.u32 16) = 0 then absent s (k.u32 16) else none
  check10 s k := ((s.holders (k.u32 16)).find? fun l => l.holder != 0).map fun l =>
    { status := stConflict, detail := l.holder }
  effect s k :=
    let ref := k.u32 16
    let prev := s.assignedFn ref
    let assign := if k.u16 20 = 0 then s.kym.assign.erase ref else s.kym.assign.set ref (k.u16 20)
    let s' := { s with kym := { s.kym with assign := assign } }
    { state := if unitClass ref = 0x0D && refKind ref = 0 && prev != k.u16 20 then s'.unmapBar2 (unitIndex ref) (k.u16 20) else s'
      result := toLE 2 prev }

def execResourceAssign (k : KCmd) (s : State) : Host.Outcome State Fault Refusal := .next (s.kymal resourceAssignCmd k)

/-! ### Standing orders -/

/-- Parameter fields of an order: offset, length, lowest and highest value (Table 5-2). -/
def orderFields (code : Nat) (k : KCmd) : List (Nat × Nat × Nat × Nat) :=
  match code with
  | 1 => [(24, 2, 700, 950), (26, 2, 500, k.u16 24 - 20), (28, 1, 25, 90)]
  | 2 => [(24, 2, 800, 1050), (26, 2, 600, k.u16 24 - 20), (28, 1, 25, 90), (30, 2, 0, 640)]
  | 3 => [(24, 2, 2, 1000), (28, 4, 1, 86400), (32, 2, 1, 512)]
  | 4 => [(24, 4, 1, 1000000), (28, 2, 1, 168), (30, 2, 1, 168)]
  | 5 => [(24, 2, 200, 450), (26, 2, 150, k.u16 24 - 10), (28, 2, 1, 64), (30, 2, 80, 720)]
  | 6 => [(24, 2, 1, 60)]
  | _ => []

def orderCode (ref : Nat) : Nat := refId ref / 0x10000

def badOrderRef (k : KCmd) : List Nat := badIf (!(refValid (k.u32 16) && refKind (k.u32 16) == 3)) 16

/-- Offsets of the parameter bytes out of range, and of non-zero bytes of no field (R183, R226). -/
def badOrderParams (k : KCmd) : List Nat :=
  let fs := orderFields (orderCode (k.u32 16)) k
  let out := fun (f : Nat × Nat × Nat × Nat) =>
    let v := fieldAt k.payload (f.1 - 16) f.2.1
    decide (v < f.2.2.1) || decide (f.2.2.2 < v)
  (fs.filter out).map (·.1)
  ++ (List.range 64).filterMap fun i =>
    let o := 24 + i
    if k.u8 o != 0 && !(fs.any fun f => decide (f.1 ≤ o) && decide (o < f.1 + f.2.1)) then some o else none

def orderArmCmd : Cmd where
  opcode := 0x0201
  primary := .res
  lease := .excl
  vf := false
  layout := [(16, 4, 2 ^ 32 - 1), (24, 64, 2 ^ 512 - 1)]
  ref _ k := k.u32 16
  bad _ k := let r := badOrderRef k; if r.isEmpty then badOrderParams k else r
  effect s k :=
    let ref := k.u32 16
    let o := s.orders.get {} (refId ref)
    let o' := { o with armed := true, params := (k.payload.drop 8).take 32, hot := 0, cool := 0, belowSince := none,
                       count := if o.armed then o.count else 0 }
    { state := { s with orders := s.orders.set (refId ref) o' }
      result := toLE 1 1 ++ toLE 3 0 ++ toLE 4 o'.count }

def execOrderArm (k : KCmd) (s : State) : Host.Outcome State Fault Refusal := .next (s.kymal orderArmCmd k)

def isMandatory (ref : Nat) : Bool := mandatoryStack.contains ref || mandatoryDie.contains ref

/-- The island of an order's carrier (Table 5-1): the power manager for a die, else the target's home island, the lower of
the two for a stack. -/
def orderIsland (ref : Nat) : Nat :=
  if unitClass (ref % 0x10000) = 0x07 then islPmgr else stampIsland (ref % 0x10000)

/-- EV_ORDER_TRIGGERED or EV_ORDER_RELEASED: value at evaluation and times triggered (Table 5-12, R1031). -/
def State.orderEvent (s : State) (triggered : Bool) (ref : Nat) (o : Order) : State :=
  s.raise (if triggered then 0x0201 else 0x0202) (if triggered then sevNotice else sevInfo) (ref % 0x10000)
    [(32, ref), (32, o.value), (16, min o.count 65535)] (.ref ref) (some (orderIsland ref))

def orderClearCmd : Cmd where
  opcode := 0x0202
  primary := .res
  lease := .excl
  vf := false
  inL := true
  urgent := true
  layout := [(16, 4, 2 ^ 32 - 1)]
  ref _ k := k.u32 16
  bad _ k := badOrderRef k
  check6 s k :=
    if isMandatory (k.u32 16) && s.boot.device == .service then failState 0 3
    else if (s.orders.get {} (refId (k.u32 16))).armed then none else failState 2 0
  effect s k :=
    let ref := k.u32 16
    let o := s.orders.get {} (refId ref)
    let s := if o.triggered then s.orderEvent false ref o else s
    let o' := { o with armed := false, params := [], inForce := [], triggered := false, hot := 0, cool := 0,
                       belowSince := none }
    let s := { s with orders := s.orders.set (refId ref) o' }
    { state := if orderCode ref = 5 then { s with power := { s.power with reduction := 0, recovering := false } } else s }

def execOrderClear (k : KCmd) (s : State) : Host.Outcome State Fault Refusal := .next (s.kymal orderClearCmd k)

def orderQueryCmd : Cmd where
  opcode := 0x0203
  primary := .res
  inL := true
  urgent := true
  layout := [(16, 4, 2 ^ 32 - 1)]
  ref _ k := k.u32 16
  bad _ k := badOrderRef k
  names _ k := [k.u32 16]
  effect s k :=
    let o := s.orders.get {} (refId (k.u32 16))
    { state := s
      result := toLE 1 (natOf o.armed) ++ toLE 3 0 ++ toLE 4 o.count ++ fitBytes 32 (if o.armed then o.params else []) }

def execOrderQuery (k : KCmd) (s : State) : Host.Outcome State Fault Refusal := .next (s.kymal orderQueryCmd k)

/-! ### Events and logs -/

def eventqConfigCmd : Cmd where
  opcode := 0x0301
  primary := .own
  sb := false
  inL := true
  urgent := true
  layout := [(16, 1, 1), (17, 1, 0xFF), (18, 2, 0xFFFF), (24, 8, 2 ^ 64 - 1)]
  bad _ k := badIf (k.u8 17 < 6 || k.u8 17 > 16) 17
    ++ badIf (!k.isSideband && decide (k.u16 18 ≥ vectorLimit k.master)) 18 ++ badIf (k.u64 24 % 4096 != 0) 24
  check6 s k :=
    let q := s.queue k.master
    if q.enabled && (q.log2 != k.u8 17 || q.vector != k.u16 18 || q.base != k.u64 24) then failState 2 1 else none
  effect s k :=
    let q := s.queue k.master
    let on := bitOf (k.u8 16) 0
    let q' := if on && !q.enabled then
        { q with enabled := true, log2 := k.u8 17, vector := k.u16 18, base := k.u64 24, head := 0, idx := 0, held := 0,
                 phase := true, raised := false }
      else { q with enabled := on, log2 := k.u8 17, vector := k.u16 18, base := k.u64 24 }
    { state := s.setQueue k.master q' }

def execEventqConfig (k : KCmd) (s : State) : Host.Outcome State Fault Refusal := .next (s.kymal eventqConfigCmd k)

/-- On a host path the data go to an indirect buffer of at least `n` bytes. -/
def badBuffer (k : KCmd) (n : Nat) : List Nat :=
  if k.isSideband then [] else if !k.ind then [2] else badIf (k.bufLen < n) 120

def logReadCmd : Cmd where
  opcode := 0x0302
  primary := .none
  vf := false
  inL := true
  urgent := true
  layout := [(16, 4, 2 ^ 32 - 1), (24, 8, 2 ^ 64 - 1)]
  bad _ k := badIf (k.u32 16 < 1 || k.u32 16 > (if k.isSideband then 28 else 2048)) 16 ++ badBuffer k (32 * k.u32 16)
  check6 s _ := if s.ev.logOpen && !s.ev.noLog then none else failState 2 0
  effect s k :=
    let log := s.ev.log
    let seqOf := fun (e : Option Event) => (e.map (·.seq)).getD 0
    let got := (log.filter fun e => k.u64 24 ≤ e.seq).take (k.u32 16)
    let oldest := seqOf log.head?
    let first := if got.isEmpty then max (k.u64 24) oldest else seqOf got.head?
    { state := s
      result := toLE 8 first ++ toLE 4 got.length ++ toLE 4 0 ++ toLE 8 oldest ++ toLE 8 (seqOf log.getLast?)
      data := got.flatMap fun e => recordBytes e false }

def execLogRead (k : KCmd) (s : State) : Host.Outcome State Fault Refusal := .next (s.kymal logReadCmd k)

/-- Lost-counters of a function, or of the device, for classes 1-17 (R215). -/
def State.lostCounters (s : State) (f : Nat) : List Nat :=
  (List.range 17).map fun i => if f = 0xFFFF then s.ev.deviceLost.get 0 (i + 1) else s.ev.lost.get 0 (32 * f + i + 1)

def countersReadCmd : Cmd where
  opcode := 0x0303
  primary := .none
  inL := true
  urgent := true
  layout := [(16, 2, 0xFFFF)]
  bad _ k := badIf (k.u16 16 > 127 && k.u16 16 != 0xFFFF) 16 ++ badBuffer k 136
  denied _ k := k.isVf && k.u16 16 != k.master
  check6 s k := if k.u16 16 = 0xFFFF || s.functionExists (k.u16 16) then none else failState 1 0xFFFF
  effect s k :=
    let f := k.u16 16
    let first := if f = 0xFFFF then s.ev.deviceFirst else (s.queue f).first
    let counts := s.lostCounters f
    { state := s
      result := toLE 1 ((first.map (·.cls)).getD 0) ++ toLE 7 0 ++ toLE 8 ((first.map (·.stamp)).getD 0)
        ++ toLE 8 (counts.foldl (· + ·) 0)
      data := counts.flatMap (toLE 8) }

def execCountersRead (k : KCmd) (s : State) : Host.Outcome State Fault Refusal := .next (s.kymal countersReadCmd k)

end Sys2Proof.Machine
end

