-- ==== Sys2Proof/Machine/MemoryRows.lean ====
section
/-! DEFINITION. Steps of the memory islands and the Basin (chapters 07, 08, 09). -/

namespace Sys2Proof.Machine

/-- Allocation policy on a read miss (R361, Table 8-1). -/
def allocates : Requester → Bool
  | .aperture | .gather | .sequencer => true
  | .pump hint => hint
  | .infuser | .bar2 | .cohort => false

namespace State

/-- An access of a page waits: its channel stopped, capped in this microsecond or without sluice credit, its page locked, or
its island's clock gated (R297, R299, R309, R315, R392, R403). -/
def memWaits (s : State) (dpa : Nat) : Bool :=
  match chanOf dpa with
  | none => false
  | some n =>
    s.chanStopped n || s.mem.locks.has (dpa / 4096) || s.islandHalted (chanIsland n) || s.capped n
      || match s.ownerOf dpa with
        | some (_, p) => s.mustWait p n
        | none => false

/-- An access whose line is held is a hit: it waits for no credit (R333). -/
def basinHit (s : State) (dpa : Nat) : Bool :=
  s.caches (homeSlice dpa) && ((s.slice (homeSlice dpa)).lookup (dpa / 128)).isSome

/-- An access of a line waits: its home slice's clock stands (R44), or it misses and its memory waits. -/
def lineWaits (s : State) (dpa : Nat) : Bool := s.islandHalted (homeSlice dpa) || (!s.basinHit dpa && s.memWaits dpa)

def deliver (r : State × ReadOut) : State := r.1.emit (.data r.2.bytes r.2.bad.isSome)

/-! ### Requests that wait at a channel (R298) -/

/-- Slots of BAR2, of 256 MiB. -/
def slotBytes : Nat := 0x10000000

/-- Lines a run of polder bytes touches, by device physical address, in offset order. -/
def linesTouched (p : Polder) (o len : Nat) : List Nat :=
  (List.range ((o % 128 + len + 127) / 128)).filterMap fun i => p.dpa (alignDown o 128 + 128 * i)

/-- Polder offset that a BAR2 access reaches through a map register. -/
def bar2Offset (m : Bar2Map) (r : Bar2Request) : Nat := m.granule * slotBytes + r.offset % slotBytes

/-- Bytes of a BAR2 access. -/
def bar2Len (r : Bar2Request) : Nat := match r.write with | some b => b.length | none => r.len

/-- Lines of a BAR2 access, through its slot's map register. -/
def bar2Lines (s : State) (f : Nat) (r : Bar2Request) : List Nat :=
  let m := (s.hostFn f).bar2.get {} (r.offset / slotBytes)
  match s.polder? m.polder with
  | some p => linesTouched p (bar2Offset m r) (bar2Len r)
  | none => []

/-- Where a waiting request goes in memory, and whether it is looked up in the Basin first. -/
def rowTargets (s : State) (row : Instr) : List Nat × Bool :=
  match row with
  | .narrowRead dpa _ => ([dpa], false)
  | .fullRead page _ => ([4096 * page], false)
  | .fullPageWrite page _ => ([4096 * page], false)
  | .lineFill _ dpa => ([dpa], true)
  | .basinAccess r => ([r.dpa], true)
  | .bar2Access f r => (s.bar2Lines f r, true)
  | _ => ([], false)

/-- A waiting request could be served now. -/
def servable (s : State) (row : Instr) : Bool :=
  let (as_, cached) := s.rowTargets row
  as_.all fun a => if cached then !s.lineWaits a else !s.memWaits a

/-- The sluice of a request: that of the polder it reaches, none for the free pool. -/
def rowSluice (s : State) (row : Instr) : Option Nat :=
  (s.rowTargets row).1.head?.bind fun a => (s.ownerOf a).bind fun o => o.2.sluice

/-- A request that comes now waits: it must, or one that waits already is to be served before it (R298). -/
def queues (s : State) (n : Nat) (row : Instr) : Bool := !s.servable row || (s.chan n).waiting.any s.servable

/-- A request joins those that wait at its channel. -/
def enqueue (s : State) (n : Nat) (row : Instr) : State :=
  let c := s.chan n
  s.setChan n { c with waiting := c.waiting ++ [row] }

/-- A request at channel `n` crosses into its island, waits there for its turn, or is served. -/
def request (s : State) (n : Nat) (row : Instr) (serve : State → State) : State :=
  if s.crosses (chanIsland n) then s.cross (chanIsland n) row
  else if s.queues n row then s.enqueue n row
  else serve s

/-- Places from the sluice served last to another, in rotating order. -/
def turnsAfter (last : Option Nat) (i : Nat) : Nat :=
  match last with
  | some j => (i + 63 - j % 64) % 64
  | none => i

/-- The request that a channel serves next, among those that could be served: of the sluices, which all hold credit, the next
in rotating order, ahead of the free pool (R298). Requests of one sluice, and those of the free pool, take their turns in the
order in which they came (DESIGN CHOICE, log entry 66). -/
def nextRequest (s : State) (n : Nat) : Option (Instr × Option Nat) :=
  let c := s.chan n
  let ready := (c.waiting.filter s.servable).map fun row => (row, s.rowSluice row)
  let best := ready.foldl (fun (m : Option (Instr × Nat)) x =>
    match x.2, m with
    | none, m => m
    | some i, none => some (x.1, i)
    | some i, some (row, j) => if turnsAfter c.turn i < turnsAfter c.turn j then some (x.1, i) else some (row, j)) none
  match best with
  | some (row, i) => some (row, some i)
  | none => ready.head?

end State

/-- R305, R306, R372, R373, R384, R396, R919. -/
def execNarrowRead (dpa : Nat) (faults : List Nat) (s : State) : Host.Outcome State Fault Refusal :=
  let serve := fun (s : State) => State.deliver ((s.withFaults (dpa / 4096) faults).narrowRead dpa)
  .next (match chanOf dpa with
    | some n => s.request n (.narrowRead dpa faults) serve
    | none => serve s)

/-- R374-R379, R385, R396, R401, R402, R413, R919. -/
def execFullRead (page : Nat) (faults : List Nat) (s : State) : Host.Outcome State Fault Refusal :=
  let serve := fun (s : State) => State.deliver ((s.withFaults page faults).fullRead (4096 * page) 4096 1)
  .next (match chanOf (4096 * page) with
    | some n => s.request n (.fullRead page faults) serve
    | none => serve s)

/-- R380-R383, R390, R391, R393, R394: a write within one page; `poisoned` lists the sectors that arrive poisoned, from its
first. While the page is locked new writes still join its entry (R403). -/
def execMergeWrite (dpa : Nat) (data : Bytes) (poisoned : List Nat) (s : State) : Host.Outcome State Fault Refusal :=
  .next (if dpa / 4096 ≠ (dpa + data.length - 1) / 4096 || data.length ≥ 4096 then s
    else match chanOf dpa with
      | none => s
      | some n =>
        if s.crosses (chanIsland n) then s.cross (chanIsland n) (.mergeWrite dpa data poisoned)
        else s.writeMem { dpa := dpa, bytes := data, bad := poisoned.map (dpa % 4096 / 32 + ·) })

/-- R388, R393, R398, R314, R391, R920. -/
def execFullPageWrite (page : Nat) (data : Bytes) (s : State) : Host.Outcome State Fault Refusal :=
  .next (match chanOf (4096 * page) with
    | some n => if data.length = 4096 then s.request n (.fullPageWrite page data) (·.fullPageWrite page data) else s
    | none => s)

/-- 2 µs window in nanoseconds (R382). -/
def mergeWindow : Nat := 2000

/-- R297, R382: the window of an entry has passed; R383 and Table 9-5 commit within the steps that cause them. -/
def execMergeCommit (n page : Nat) (s : State) : Host.Outcome State Fault Refusal :=
  .next (match s.entryOf n page with
    | some e => if s.now ≥ e.opened + mergeWindow && !s.memWaits (4096 * page) then s.commit n page else s
    | none => s)

/-- R296, R311-R315: one failed attempt of a board access, `retries` of four already made; each retry moves a page on the
wires again. A write that failed them all is not done, and what the page's entry held of it is gone; a read that failed them
all is uncorrectable when it completes to its requester. -/
def execBoardAccessCrcFail (b : Nat) (write : Bool) (page retries : Nat) (s : State) :
    Host.Outcome State Fault Refusal :=
  let n := 128 + b
  .next (if chanOf (4096 * page) ≠ some n || b ≥ 12 || !s.mem.trained.contains b || s.chanStopped n
      || s.islandHalted (chanIsland n) then s
    else if retries < 4 then
      let s := s.charge ((s.ownerOf (4096 * page)).bind fun o => o.2.sluice) n 4608
      let c := s.chan n
      s.setChan n { c with crcRetries := c.crcRetries + 1 }
    else if write then
      let s := (s.dropEntry n page).addPoison n page (4096 * page)
      if s.chanStopped n then s
      else s.raise 0x0503 sevFailed (boardUnit b) (State.memDetail (4096 * page) 0xFF 0xFF 6 0 0)
    else
      let s := s.noteUncorrectable n (4096 * page) 6 0
      let c := s.chan n
      s.setChan n { c with failedReads := c.failedReads ++ [page] })

/-! ### Patrol -/

/-- The lowest page at or above `page` that belongs to a polder in channel `n`. -/
def State.nextPatrolPage (s : State) (n page : Nat) : Option Nat :=
  let starts := s.mem.polders.cells.flatMap fun c => (c.2.place.cells.filter fun x => x.2 / 0x1000 == n).map fun x =>
    pieceDpa x.2 / 4096
  let k := pieceBytes n / 4096
  minOffset (starts.filterMap fun a => if page < a + k then some (max a page) else none)

/-- Reserved slabs of a channel; near channels hold none (R316). -/
def State.reservedOn (s : State) (n : Nat) : Nat := if n < 128 then 0 else s.mem.reserved.get 0 (n - 128)

/-- Pages of the reserved area in a channel. -/
def State.areaPages (s : State) (n : Nat) : Nat := s.reservedOn n * (slabBytes / 4096)

/-- Pages in use in a channel: those of polders, and of the reserved area. -/
def State.pagesInUse (s : State) (n : Nat) : Nat :=
  (s.mem.polders.total fun _ p => (p.place.count fun _ v => v / 0x1000 == n) * (pieceBytes n / 4096)) + s.areaPages n

/-- Hours of a pass: 24 from boot, the PATROL_CONFIG period, or the shorter fast_period while SO_PATROL_RATE is
triggered (R408). -/
def State.patrolHours (s : State) (n : Nat) : Nat :=
  let o := s.orders.get {} (4 * 0x10000 + chanUnit n)
  let period := (s.chan n).patrol.period
  if o.triggered then min (fieldAt o.inForce 4 2) period else period

/-- Nanoseconds between pages (R408). -/
def State.patrolSpacing (s : State) (n : Nat) : Nat :=
  s.patrolHours n * 3600000000000 / max 1 (s.pagesInUse n)

def State.setPatrol (s : State) (n : Nat) (f : Patrol → Patrol) : State :=
  let c := s.chan n
  s.setChan n { c with patrol := f c.patrol }

/-- Reads one page under a lock and repairs it (R403-R407): the whole tail of a check-only page, the sectors and the
tail of a corrected one, which is traffic of patrol as well (R302). Patrol needs no key. -/
def State.patrolRead (s : State) (n page : Nat) : State :=
  let s := (s.commit n page).charge (s.chan n).patrol.sluice n 4608
  match s.mem.pages.get? page with
  | none => s.countUncorrectable n
  | some g =>
    if unwritten g then s.countUncorrectable n
    else if (s.chan n).poison.any fun q => (if n < 128 then q / 128 else q) == page then
      (s.countUncorrectable n).setPatrol n fun p => { p with uncorrectable := p.uncorrectable + 1 }
    else if g.errs.isEmpty then s
    else if g.errs.length ≤ tOf g.strength then
      let data := (g.errs.filter (· < 2048)).length
      let s := s.noteDecode n page 3 g
      let sectors := ((g.errs.filter (· < 2048)).map (· / 16)).eraseDups.length
      let s := s.charge (s.chan n).patrol.sluice n (512 + 32 * sectors)
      let s := { s with mem := { s.mem with pages := s.mem.pages.set page { g with errs := [] } } }
      s.setPatrol n fun p => if data = 0 then { p with checkOnly := p.checkOnly + 1 } else { p with corrected := p.corrected + 1 }
    else (s.noteUncorrectable n (4096 * page) 3 g.strength).setPatrol n fun p => { p with uncorrectable := p.uncorrectable + 1 }

/-- End of a pass: EV_PATROL_PASS, and the next pass starts (R410, Table 9-6). -/
def State.endPass (s : State) (n : Nat) : State :=
  let p := (s.chan n).patrol
  let s := s.raise 0x0506 sevInfo (chanUnit n)
    [(32, (s.now - p.started) / 1000000000), (20, min p.corrected (2 ^ 20 - 1)), (20, min p.checkOnly (2 ^ 20 - 1)),
     (16, min p.uncorrectable 65535), (8, p.sluice.getD 0xFF)]
  s.setPatrol n fun p => { p with next := 0, started := s.now, corrected := 0, checkOnly := 0, uncorrectable := 0, area := 0 }

/-- The stack of a near channel is lost: nothing of it is read, repaired or moved any more (R275, R320). -/
def State.chanLost (s : State) (n : Nat) : Bool := decide (n < 128) && s.stackFailed (n / 16)

/-- The channel's patrol walker goes on: the channel IN_SERVICE and not stopped, capped or lost, its island's clock running. -/
def State.patrolRuns (s : State) (n : Nat) : Bool :=
  !s.chanStopped n && s.inService (chanUnit n) && !s.chanLost n && !s.islandHalted (chanIsland n) && !s.capped n

/-- R302, R404-R408, R410. The walk ends with the reserved area of a board channel; wrong symbols there are not modelled
(log entry 69). -/
def execPatrolPage (n : Nat) (faults : List Nat) (s : State) : Host.Outcome State Fault Refusal :=
  let p := (s.chan n).patrol
  .next (if s.sluiceHolds p.sluice n || !s.patrolRuns n || s.now < p.last + s.patrolSpacing n then s
    else
      let s := s.setPatrol n fun p => { p with last := s.now }
      match s.nextPatrolPage n p.next with
      | some page =>
        let s := s.withFaults page faults
        let s1 := s.setPatrol n fun p => { p with next := page + 1 }
        let fresh := match s.ownerOf (4096 * page) with
          | some (_, q) => s.freshClear q page
          | none => false
        if fresh then s1
        else if (s.entryOf n page).isSome then s1.setPatrol n fun p => { p with skipped := p.skipped ++ [page] }
        else s1.patrolRead n page
      | none =>
        if p.area < s.areaPages n then (s.charge p.sluice n 4608).setPatrol n fun p => { p with area := p.area + 1 }
        else match p.skipped with
        | page :: rest => (s.setPatrol n fun p => { p with skipped := rest }).patrolRead n page
        | [] => s.endPass n)

/-! ### Live row remapping -/

/-- Pages with data in a user row, or a tail in a tail row, of near channel `n` (R370). -/
def pagesOfRow (n bank row : Nat) : List Nat :=
  if row < 12288 then
    let r := row * 32 + bank
    (List.range 2).map fun i => chanBase n / 4096 + 2 * r + i
  else
    let t := (row - 12288) * 32 + bank
    (List.range 16).map fun i => chanBase n / 4096 + 16 * t + i

/-- Lowest free spare of a bank. -/
def freeSpare (r : List Remap) (bank : Nat) : Option Nat :=
  (List.range 16).find? fun k => !r.any fun m => m.bank == bank && m.spare == k

/-- Reports exhaustion once for each cause and bank (R416). -/
def State.exhaust (s : State) (n bank cause : Nat) : State :=
  let c := s.chan n
  if c.exhausted.contains (cause * 32 + bank) then s
  else (s.setChan n { c with exhausted := (cause * 32 + bank) :: c.exhausted }).raise 0x0505 sevDegraded (chanUnit n)
    [(5, bank), (2, cause)]

def State.setOrder (s : State) (ref : Nat) (o : Order) : State := { s with orders := s.orders.set (refId ref) o }

def State.order (s : State) (ref : Nat) : Order := s.orders.get {} (refId ref)

/-- Copies one page's row into the spare: the wrong symbols of that row are gone, an uncorrectable or unwritten page keeps
its stored bytes (R415). -/
def State.copyRowPage (s : State) (n row page : Nat) : State :=
  let s := s.commit n page
  match s.mem.pages.get? page with
  | none => s
  | some g =>
    let s := s.activate n
    if unwritten g then s
    else if g.errs.length > tOf g.strength then s.noteUncorrectable n (4096 * page) 4 g.strength
    else
      let s := s.noteDecode n page 4 g
      let g' := { g with errs := g.errs.filter fun q => if row < 12288 then 2048 ≤ q else q < 2048 }
      { s with mem := { s.mem with pages := s.mem.pages.set page g' } }

/-- R185, R189, R403, R404, R413-R417. -/
def execLiveRowRemap (n bank row : Nat) (s : State) : Host.Outcome State Fault Refusal :=
  let ref := orderRef 3 (nearUnit n)
  let o := s.order ref
  let c := s.chan n
  .next (match c.rows.find? fun t => t.bank == bank && t.row == row with
    | none => s
    | some t =>
      let due := o.armed && decide (n < 128) && decide (t.count ≥ fieldAt o.params 0 2)
        && decide (t.last ≤ t.first + s.remapWindow n) && !s.chanLost n && !s.islandHalted (chanIsland n)
        && !(c.remaps.any fun m => m.bank == bank && m.row == row)
      if !due then s
      else if c.remaps.length ≥ fieldAt o.params 8 2 then s.exhaust n bank 0
      else
        match freeSpare c.remaps bank with
        | none => s.exhaust n bank 1
        | some spare =>
          let o := { o with count := o.count + 1, value := t.count }
          let s := (s.setOrder ref o).orderEvent true ref o
          let s := (pagesOfRow n bank row).foldl (fun s p => s.copyRowPage n row p) s
          let table := c.remaps ++ [⟨bank, row, spare⟩]
          let s := s.setChan n { s.chan n with remaps := table }
          let s := { s with mem := { s.mem with remapCopy := s.mem.remapCopy.set n table } }
          let s := s.reservedWrite [(Config.remapPlace s.mem.reserved.cells n c.remaps.length, Config.remapSector bank row spare)]
          let s := s.raise 0x0504 sevNotice (nearUnit n) [(5, bank), (14, row), (4, spare), (10, table.length)]
          s.orderEvent false ref o)

/-! ### Stacks -/

/-- Accepted commands whose states exclude LOST end with ST_STATE, scope 0, code 4 (R147); those of Table 4-2 that LOST
admits run on: LEASE_BREAK, REMAP_SCHEDULE, FW_STAGE. -/
def runsInLost (opcode : Nat) : Bool := opcode == 0x0107 || opcode == 0x1802 || opcode == 0x1905

/-- The final reply of an accepted command, or EV_CMD_ORPHANED for a reset function (R93, R127). Its resource stays in
transition until the reply is written (R90); a queue reset since it was taken has no history of it (R1033). -/
def State.concludeRunning (s : State) (r : Running) (f : Finish) : State :=
  let s := { s with kym := { s.kym with running := s.kym.running.filter fun x =>
    !(decide (x.cmd.path = r.cmd.path) && x.cmd.seq == r.cmd.seq && x.opcode == r.opcode && x.ref == r.ref && x.orphan == r.orphan) } }
  if r.orphan then
    s.raise 0x0104 sevNotice (functionUnit r.cmd.path.master)
      [(16, r.opcode), (3, match r.cmd.path with | .queue _ q => q | .urgent _ => 4 | .sideband => 0), (13, 0),
       (32, r.cmd.seq.toNat), (16, f.status)] (.fn 0) islWarden
  else
    let reply : Reply := { path := r.cmd.path, opcode := r.opcode, seq := r.cmd.seq, status := f.status, detail := f.detail
                           gen := s.generation r.ref, result := f.result, owes := if r.modeS then none else some r.ref }
    if r.forgotten then s.sendReply reply else s.finalReply reply

/-- The device enters LOST (R147, R271); an activation judged ends with its command. A warden that is halted or restarting
ends nothing: its restart ends what it had taken (R58, R129). -/
def State.enterLost (s : State) : State :=
  let s := { s with boot := { s.boot with device := .lost } }
  if s.kym.warden == .halted || s.kym.warden == .restarting then s
  else
    let ending := s.kym.running.filter fun r => !runsInLost r.opcode
    let s := { s with kym := { s.kym with activating := none } }
    ending.foldl (fun s r => s.concludeRunning r { status := stState, detail := stateDetail 0 4 }) s

/-- A stack declared failed (R319, R323): EV_STACK_LOST, and LOST when in service; during boot LOST comes with step 16
(R271, R272). -/
def State.failStack (s : State) (st cause unit wire group : Nat) : State :=
  let s := { s with mem := { s.mem with nearStacks := s.mem.nearStacks.upd {} st fun k => { k with failed := true } } }
  let s := s.raise 0x0507 sevFatal (stackUnit st) [(16, unit), (8, cause), (8, wire), (1, group)]
    .unit (stampIsland unit)
  if s.boot.device = .unconfigured || s.boot.device = .service then s.enterLost else s

/-- 1 ms of silence (Table 7-5, cause 5). -/
def execStackReadoutSilent (stack : Nat) (s : State) : Host.Outcome State Fault Refusal :=
  let k := s.mem.nearStacks.get {} stack
  .next (if stack ≥ 8 || k.failed || s.boot.step < 12 || s.now < k.lastReadout + 1000000
      || (homeIslands (stackUnit stack)).all s.islandHalted then s
    else s.failStack stack 5 (stackUnit stack) 0xFF 0)

/-- The four retries of the command whose parity failed count as CRC retries of the channel (chapter 09, HEALTH_READ). Retries
that end well have no row of their own (DESIGN CHOICE, log entry 56). -/
def State.countParity (s : State) (cause channel : Nat) : State :=
  if cause = 3 then s.setChan channel { s.chan channel with crcRetries := (s.chan channel).crcRetries + 4 } else s

/-- Conditions 3 and 4 of Table 7-5 in service; 1 and 2 are step 12's (R319, R271). Cause 3 is of the command group, cause 4
of the data group (Table 7-6). -/
def execStackFailure (stack cause channel wire group : Nat) (s : State) : Host.Outcome State Fault Refusal :=
  .next (if stack ≥ 8 || (s.mem.nearStacks.get {} stack).failed || s.boot.step < 12 || channel / 16 ≠ stack
      || !(cause == 3 && group == 1 || cause == 4 && group == 0) || s.islandHalted (chanIsland channel) then s
    else (s.countParity cause channel).failStack stack cause (nearUnit channel) wire group)

/-! ### Sluices, refresh and temperatures -/

/-- One sluice at the end of a 10 µs window (R297, R299, R304): rate in MB/s times 10 µs is 10 bytes a unit. -/
def redivide (waiting : Bool) (q : Sluice) : Sluice :=
  let short := waiting && decide (0 < q.credit)
  let credit := min (q.credit + 10 * q.rate) (1024 * q.burst)
  let total := q.used.total fun _ b => b
  { q with credit := credit, used := {}, waited := waiting, shortfall := q.shortfall + natOf short
           share := if total = 0 then {} else q.used.map fun _ b => credit * b / total }

/-- A request of a polder bound to the sluice waits at some channel. -/
def State.sluiceWaits (s : State) (i : Nat) : Bool :=
  s.mem.channels.any fun _ (c : Channel) => c.waiting.any fun row => s.rowSluice row == some i

/-- R299, R304; `waiting` lists the sluices for which a request of an engine waits at the window's end, beside those of the
requests that wait at the channels. -/
def execSluiceRedivision (waiting : List Nat) (s : State) : Host.Outcome State Fault Refusal :=
  let waits := fun i => waiting.contains i || s.sluiceWaits i
  .next { s with mem := { s.mem with sluices := s.mem.sluices.map fun i q => redivide (waits i) q } }

/-- R308: `divisor` is what JESD239 asks for at that temperature. -/
def execBoardTempRead (b tj divisor : Nat) (s : State) : Host.Outcome State Fault Refusal :=
  .next (if b ≥ 12 || !s.mem.trained.contains b || s.islandHalted (80 + b) then s
    else s.setChan (128 + b) { s.chan (128 + b) with deviceTj := tj, refreshDiv := divisor })

/-- A stack's Tj: its hottest sensor, 0.1 °C (R190). -/
def State.stackTj (s : State) (st : Nat) : Nat := ((s.mem.nearStacks.get {} st).sensors).foldl max 0

/-- Refresh multiplier: 1, 2 or 4 by the stack's Tj (R307). -/
def State.refreshMultiplier (s : State) (st : Nat) : Nat :=
  if s.stackTj st ≤ 850 then 1 else if s.stackTj st ≤ 950 then 2 else 4

/-- Refreshes in one base interval: as many as the multiplier of the stack's Tj asks, or the divisor that JESD239 gives for
the board devices' temperature (R307, R308). -/
def State.refreshesDue (s : State) (n : Nat) : Nat := if n < 128 then s.refreshMultiplier (n / 16) else (s.chan n).refreshDiv

/-- The channel refreshes: its island runs, a near one from step 12 on, a board one once trained. -/
def State.refreshRuns (s : State) (n : Nat) : Bool :=
  !s.islandHalted (chanIsland n) && (if n < 128 then decide (12 ≤ s.boot.step) else decide (n < 140) && s.mem.trained.contains (n - 128))

/-- One base interval of a channel (R307, R308). -/
def execRefresh (n : Nat) (s : State) : Host.Outcome State Fault Refusal :=
  .next (if s.refreshRuns n then s.setChan n { s.chan n with refreshes := (s.chan n).refreshes + s.refreshesDue n } else s)

/-- One evaluation of a thermal order (R187, R190): three in a row at or above trigger start it, a hundred at or below
release end it. -/
def evalThermal (o : Order) (tj : Nat) : Order × Option Bool :=
  let o := { o with value := tj, inForce := o.params }
  let hot := if tj ≥ fieldAt o.params 0 2 then o.hot + 1 else 0
  let cool := if tj ≤ fieldAt o.params 2 2 then o.cool + 1 else 0
  if !o.triggered && decide (hot ≥ 3) then
    ({ o with hot := hot, cool := cool, triggered := true, count := satInc (2 ^ 32 - 1) o.count }, some true)
  else if o.triggered && decide (cool ≥ 100) then ({ o with hot := hot, cool := cool, triggered := false }, some false)
  else ({ o with hot := hot, cool := cool }, none)

/-- Evaluates an armed thermal order and reports a change (R185). -/
def State.evalThermalOrder (s : State) (ref tj : Nat) : State :=
  let o := s.order ref
  if !o.armed then s
  else
    let (o', ch) := evalThermal o tj
    let s := s.setOrder ref o'
    match ch with
    | some b => s.orderEvent b ref o'
    | none => s

/-- R190, R891: a stack's four sensors, and its SO_STACK_THERMAL, which the lower of its near islands evaluates. -/
def execStackSensorReadout (stack : Nat) (temps : List Nat) (s : State) : Host.Outcome State Fault Refusal :=
  .next (if stack ≥ 8 || temps.length ≠ 4 || s.boot.step < 12 || (homeIslands (stackUnit stack)).all s.islandHalted then s
    else
      let s := { s with mem := { s.mem with nearStacks := s.mem.nearStacks.upd {} stack fun k =>
        { k with sensors := temps, lastReadout := s.now } } }
      let s := { s with power := { s.power with unread := s.power.unread.set stack 0 } }
      if s.islandHalted (stampIsland (stackUnit stack)) then s
      else s.evalThermalOrder (orderRef 1 (stackUnit stack)) (s.stackTj stack))

/-- SO_PATROL_RATE (R226, Table 5-2): corrected pages over the last hour against trigger, released after hold hours
below it. -/
def execPatrolRateWindow (n : Nat) (s : State) : Host.Outcome State Fault Refusal :=
  let ref := orderRef 4 (chanUnit n)
  let o := s.order ref
  .next (if !o.armed || n ≥ 140 || s.islandHalted (chanIsland n) then s
    else
      let c := s.chan n
      let recent := c.correctedAt.filter fun t => decide (s.now < t + 3600000000000)
      let s := s.setChan n { c with correctedAt := recent }
      let o := { o with value := recent.length, inForce := o.params }
      let trig := decide (recent.length ≥ fieldAt o.params 0 4)
      let below := if trig then none else some (o.belowSince.getD s.now)
      let o := { o with belowSince := below }
      if !o.triggered && trig then
        let o := { o with triggered := true, count := satInc (2 ^ 32 - 1) o.count }
        (s.setOrder ref o).orderEvent true ref o
      else if o.triggered && decide (below.any fun b => s.now ≥ b + fieldAt o.params 6 2 * 3600000000000) then
        let o := { o with triggered := false }
        (s.setOrder ref o).orderEvent false ref o
      else s.setOrder ref o)

/-! ### The Basin -/

/-- Requesters that an operation of a sequencer's program may have, which alone reach the scratchpad window (R330, R332). -/
def ofProgram : Requester → Bool
  | .pump _ | .gather | .infuser | .sequencer => true
  | .aperture | .bar2 | .cohort => false

/-- An access of the scratchpad window that its program's confinement let pass (R330-R332, R353, R357). -/
def State.scratchAccess (s : State) (r : BasinRequest) : State :=
  let inWindow := match State.scratchOf r.dpa with
    | some (n, q) => (s.slice n).isScratch q && ofProgram r.who
    | none => false
  if !inWindow then s
  else
    let s := s.windowFaults r.dpa r.faults
    match r.write with
    | some bs => s.scratchWrite r.dpa bs
    | none => State.deliver (s, s.scratchRead r.dpa r.len)

/-- An access looked up at its home slice. -/
def State.lookUp (s : State) (r : BasinRequest) : State :=
  match r.write with
  | some bs => s.lineWrite r.dpa bs
  | none => State.deliver (s.lineRead r.dpa r.len (allocates r.who))

/-- R330, R332, R333, R337-R345, R353-R358; an outbound window address is not cached (R335). A miss whose memory waits joins
the requests of its channel. -/
def execBasinAccess (r : BasinRequest) (s : State) : Host.Outcome State Fault Refusal :=
  .next (if r.dpa % 128 + r.len > 128 then s
    else match chanOf r.dpa with
      | none =>
        match State.scratchOf r.dpa with
        | some (n, _) => if s.crosses n then s.cross n (.basinAccess r) else s.scratchAccess r
        | none => s
      | some n =>
        if s.crosses (homeSlice r.dpa) then s.cross (homeSlice r.dpa) (.basinAccess r)
        else
          let s := s.lineFaults (homeSlice r.dpa) (r.dpa / 128) r.faults
          let row := Instr.basinAccess { r with faults := [] }
          if !s.basinHit r.dpa && s.queues n row then s.enqueue n row else s.lookUp r)

/-- R337, R338, R400: a line comes back from memory; it is allocated under the quota, or passes through. -/
def execLineFill (who : Requester) (dpa : Nat) (s : State) : Host.Outcome State Fault Refusal :=
  .next (match chanOf dpa with
    | none => s
    | some n => s.request n (.lineFill who dpa) fun s => State.deliver (s.lineRead (alignDown dpa 128) 128 (allocates who)))

end Sys2Proof.Machine
end

