-- ==== Sys2Proof/Machine/Xlat.lean ====
section
/-! DEFINITION. Translation: entries, caches and runs, misses, faults, and the invalidation handshake (chapter 10). -/

namespace Sys2Proof.Machine

/-- 4 KiB pages of one page of a size code. -/
def sizePages (size : Nat) : Nat := if size = 0 then 1 else if size = 1 then 512 else 262144

namespace XEntry

/-- 4 KiB pages the run covers. -/
def span (e : XEntry) : Nat := e.run * sizePages e.size

def covers (e : XEntry) (ast page : Nat) : Bool :=
  e.ast == ast && decide (e.page ≤ page) && decide (page < e.page + e.span)

/-- Right 0 R, 1 W, 2 A. -/
def right (e : XEntry) (n : Nat) : Bool := if n = 0 then e.r else if n = 1 then e.w else e.a

/-- The target of a DVA the entry covers. -/
def reach (e : XEntry) (dva : Nat) : Target :=
  let d := dva - 4096 * e.page
  match e.target with
  | .host h => .host (h + d)
  | .polder i o => .polder i (o + d)
  | .window n o => .window n (o + d)

def isHost (e : XEntry) : Bool := match e.target with | .host _ => true | _ => false

/-- Number of the aligned group of 512 pages of its size (R429). -/
def group (e : XEntry) : Nat := e.page / sizePages e.size / 512

/-- The entry `d` 4 KiB pages further on, its run cut to `run` pages. -/
def part (e : XEntry) (d run : Nat) : XEntry :=
  { e with page := e.page + d, run := run, target := e.reach (4096 * (e.page + d)),
           dpa := if e.isHost then 0 else e.dpa + 4096 * d }

/-- Two entries merge into one run (R429). -/
def joins (a b : XEntry) : Bool :=
  let next := match a.target, b.target with
    | .host _, .host _ => decide (a.reach (4096 * b.page) = b.target)
    | .polder _ _, .polder _ _ => decide (a.reach (4096 * b.page) = b.target) && a.dpa + 4096 * a.span == b.dpa
    | .window _ _, .window _ _ => decide (a.reach (4096 * b.page) = b.target)
    | _, _ => false
  a.ast == b.ast && a.size == b.size && a.r == b.r && a.w == b.w && a.a == b.a && a.key == b.key
    && b.page == a.page + a.span && a.group == b.group && next

end XEntry

/-- An entry cut at the boundaries of aligned groups (R430). -/
def splitGroups : Nat → XEntry → List XEntry
  | 0, e => [e]
  | fuel + 1, e =>
    let p := sizePages e.size
    let room := 512 - e.page / p % 512
    if e.run ≤ room then [e] else e.part 0 room :: splitGroups fuel (e.part (room * p) (e.run - room))

/-- DVA bit 47 clear: host memory (R421). -/
def hostHalf (page : Nat) : Bool := decide (page < 2 ^ 35)

/-- Pages of one access run merged as R429 lets them, on one side (R434). -/
def runCount (j : XJob) (side : Nat) : Nat :=
  let pages := (j.need.filter fun n => n.side == side).map (·.page)
  let one := fun p => ((j.got.find? fun e => e.covers j.ast p).map fun e =>
    if e.size = 0 then e.part (p - e.page) 1 else e).toList
  let step := fun (acc : Nat × Option XEntry) (e : XEntry) =>
    match acc.2 with
    | some l => if l == e then acc else if l.joins e then (acc.1, some e) else (acc.1 + 1, some e)
    | none => (1, some e)
  ((pages.flatMap one).foldl step (0, none)).1

/-- How a translation record stands. -/
inductive XStatus where
  | waiting
  | ready
  | failed (cause first side : Nat)
deriving DecidableEq, Repr

namespace XJob

def resolved (j : XJob) (n : Need) : Bool :=
  (j.got.any fun e => e.covers j.ast n.page && e.right n.right) || j.fails.any fun f => f.1 == n.page

/-- The first need in tile order that ended without a translation. -/
def firstFail (j : XJob) : Option (Need × Nat) :=
  j.need.findSome? fun n =>
    if j.got.any fun e => e.covers j.ast n.page && e.right n.right then none
    else (j.fails.find? fun f => f.1 == n.page).map fun f => (n, f.2)

/-- R434, R457-R459. -/
def status (j : XJob) : XStatus :=
  if j.parked.isSome || j.need.any fun n => !j.resolved n then .waiting
  else
    match j.firstFail with
    | some (n, c) => .failed c n.first n.side
    | none =>
      match (List.range 3).find? fun side => j.requester == 0 && decide (runCount j side > 256) with
      | some side => .failed 5 ((j.need.find? fun n => n.side == side).map (·.first) |>.getD 0) side
      | none => .ready

/-- A translation or driver fault still waits for its answer. -/
def waits (j : XJob) : Bool :=
  match j.parked with
  | some (_, .request _) => true
  | some _ => false
  | none => j.need.any fun n => !j.resolved n

/-- What a translated DVA reaches. -/
def reach (j : XJob) (dva : Nat) : Option (Target × XEntry) :=
  (j.got.find? fun e => e.covers j.ast (dva / 4096)).map fun e => (e.reach dva, e)

end XJob

namespace State

def space? (s : State) (ast : Nat) : Option Space := s.xlat.spaces.get? ast

def setJob (s : State) (id : Nat) (j : XJob) : State := { s with xlat := { s.xlat with jobs := s.xlat.jobs.set id j } }

def dropJob (s : State) (id : Nat) : State :=
  { s with xlat := { s.xlat with
      jobs := s.xlat.jobs.erase id
      drv := s.xlat.drv.filter fun r => r.fault != some id } }

def newJob (s : State) (j : XJob) : State × Nat :=
  ({ s with xlat := { s.xlat with jobs := s.xlat.jobs.set s.xlat.nextJob j, nextJob := s.xlat.nextJob + 1 } },
   s.xlat.nextJob)

/-- Keeps a cache within its size: pseudo-LRU drops an entry other than the one used last; which one is free (R432). -/
def evict (s : State) (l : List XEntry) (cap : Nat) : List XEntry :=
  if l.length ≤ cap then l
  else
    let v := 1 + s.freeNat % (l.length - 1)
    l.take v ++ l.drop (v + 1)

/-- Puts one run into the shared cache, merged with its neighbours (R429, R430). -/
def installOne (s : State) (e : XEntry) : State :=
  let apart := s.xlat.shared.filter fun x =>
    !(x.ast == e.ast && decide (x.page < e.page + e.span) && decide (e.page < x.page + x.span))
  let (e, apart) := match apart.find? fun x => x.joins e with
    | some x => ({ x with run := x.run + e.run }, apart.filter (· != x))
    | none => (e, apart)
  let (e, apart) := match apart.find? fun x => e.joins x with
    | some x => ({ e with run := e.run + x.run }, apart.filter (· != x))
    | none => (e, apart)
  { s with xlat := { s.xlat with shared := s.evict (e :: apart) 32768 }, freeCtr := s.freeCtr + 1 }

def install (s : State) (e : XEntry) : State := (splitGroups 1024 e).foldl installOne s

/-- Puts an entry into an engine's local cache. -/
def installLocal (s : State) (engine : Nat) (e : XEntry) : State :=
  let l := e :: (s.xlat.caches.get [] engine).filter (· != e)
  { s with xlat := { s.xlat with caches := s.xlat.caches.set engine (s.evict l 2048) }, freeCtr := s.freeCtr + 1 }

/-- The shared cache with one entry moved to its front. -/
def touchShared (s : State) (e : XEntry) : State :=
  { s with xlat := { s.xlat with shared := e :: s.xlat.shared.filter (· != e) } }

/-- A page of a record ends without a translation; a repeated one ends its fault as failed (R452). -/
def failPage (s : State) (id page cause : Nat) : State :=
  match s.xlat.jobs.get? id with
  | none => s
  | some j =>
    let c := if j.repeated.contains page && (cause == 1 || cause == 3) then 2 else cause
    s.setJob id { j with fails := j.fails ++ [(page, c)] }

/-- The detail of EV_TRANSLATE_REQUEST and EV_FAULT_REQUEST (Table 10-4). A sequencer has no requester code there: the
field is a free value (DESIGN CHOICE, log entry 14). -/
def raiseDriver (s : State) (fault : Bool) (r : DrvReq) (j : XJob) : State :=
  let code := if j.requester < 4 then j.requester else s.freeNat % 8
  s.raise (if fault then 0x0703 else 0x0701) sevInfo j.unit
    [(32, r.id), (36, r.page), (12, r.ast), (1, natOf r.write), (1, natOf r.reduce), (1, natOf j.mayFault), (3, code),
     (4, if j.requester = 0 then j.channel else 0), (1, natOf r.hostPage)] (.fn j.fn) islXlat

/-- Allocates a request id and asks the driver (R439, R448, R449). -/
def askDriver (s : State) (j : XJob) (page : Nat) (write reduce : Bool) (fault : Option Nat) (hostPage : Bool) : State :=
  let r : DrvReq := { id := s.xlat.nextId, ast := j.ast, page := page, write := write, reduce := reduce, fault := fault,
                      hostPage := hostPage }
  let s := { s with xlat := { s.xlat with drv := s.xlat.drv ++ [r], nextId := (s.xlat.nextId + 1) % 2 ^ 32 } }
  s.raiseDriver fault.isSome r j

def atsEmit (s : State) (ast page : Nat) : State :=
  match s.space? ast with
  | some x => s.emit (.atsRequest x.fn x.pasid (4096 * page))
  | none => s

/-- Consecutive pages a record needs from a page on, within one 2 MiB group, 32 at most (R438). -/
def atsRun (j : XJob) (page : Nat) : Nat :=
  let ok := fun i => (j.need.any fun n => n.page == page + i) && (page + i) / 512 == page / 512
  ((List.range 32).takeWhile ok).length

/-- A miss of one page (R435-R439). A miss beyond a limit waits in its engine (R437). -/
def miss (s : State) (id : Nat) (j : XJob) (n : Need) : State :=
  if hostHalf n.page then
    if !(s.hostFn j.fn).atsEnable then s.failPage id n.page 6
    else if s.xlat.ats.any fun r => r.ast == j.ast && decide (r.page ≤ n.page) && decide (n.page < r.page + r.count) then s
    else if s.xlat.ats.length ≥ 256 then s
    else
      let r : AtsReq := { ast := j.ast, page := n.page, count := max 1 (atsRun j n.page) }
      State.atsEmit { s with xlat := { s.xlat with ats := s.xlat.ats ++ [r] } } j.ast n.page
  else
    let write := j.need.any fun m => m.page == n.page && m.right == 1
    let reduce := n.right == 2
    if s.xlat.drv.any fun r => r.fault.isNone && r.ast == j.ast && r.page == n.page && (r.write || !write)
        && (r.reduce || !reduce) then s
    else if s.xlat.drv.length ≥ 1024 then s
    else s.askDriver j n.page write reduce none false

/-- An entry this requester may use: only pumps and sequencers reach an outbound window (R813, R819). -/
def usable (j : XJob) (e : XEntry) : Bool :=
  match e.target with
  | .window _ _ => j.requester == 0 || j.requester == 4
  | .host _ => j.requester != 3
  | .polder _ _ => true

/-- Looks one page up: local cache, shared cache, then a miss (R435). While the translation island's clock stands, what goes
beyond the local cache waits (R44). -/
def seek (s : State) (id : Nat) (n : Need) : State :=
  match s.xlat.jobs.get? id with
  | none => s
  | some j =>
    if j.resolved n then s
    else
      let hit := fun (e : XEntry) => e.covers j.ast n.page
      let near := if j.requester = 0 then s.xlat.caches.get [] j.engine else []
      match near.find? fun e => hit e && e.right n.right && usable j e with
      | some e => (s.setJob id { j with got := j.got ++ [e] }).installLocal j.engine e
      | none =>
        if s.islandHalted islXlat then s
        else match s.xlat.shared.find? hit with
        | some e =>
          if e.right n.right && usable j e then
            let s := (s.setJob id { j with got := j.got ++ [e] }).touchShared e
            if j.requester = 0 then s.installLocal j.engine e else s
          else s.failPage id n.page 1
        | none => s.miss id j n

/-- Outstanding page requests of a function. -/
def pageLoad (s : State) (fn : Nat) : Nat := (s.xlat.pages.filter fun p => p.fn == fn).length

/-- A page request of the record's channel is outstanding: it sends no other (R454). -/
def pageAsked (s : State) (j : XJob) : Bool :=
  s.xlat.pages.any fun p => (s.xlat.jobs.get? p.job).any fun q => q.unit == j.unit && q.channel == j.channel

/-- Parks a record on an unmapped page (R447-R449, R454). -/
def park (s : State) (id : Nat) (j : XJob) (page cause : Nat) : State :=
  let h := s.hostFn j.fn
  let writes := j.need.any fun n => n.page == page && n.right == 1
  if hostHalf page && cause = 1 && h.priEnable then
    if h.priStopped || s.pageAsked j || s.pageLoad j.fn ≥ h.priAllocation then s.setJob id { j with parked := some (page, .allocation) }
    else
      let g := s.xlat.nextGroup
      let r : PageReq := ⟨g, j.fn, page, id⟩
      let s := { s with xlat := { s.xlat with pages := s.xlat.pages ++ [r], nextGroup := (g + 1) % 512 } }
      let s := s.setJob id { j with parked := some (page, .page g) }
      let pasid := match s.space? j.ast with
        | some x => x.pasid
        | none => 0
      s.emit (.pageRequest j.fn pasid (4096 * page) g
        (j.need.any fun n => n.page == page && n.right == 0) writes)
  else
    let s := s.setJob id { j with parked := some (page, .request s.xlat.nextId) }
    s.askDriver j page writes false (some id) (hostHalf page)

/-- A fault-capable channel parks on its first unmapped page, unless a page ended in a way that never faults. -/
def settle (s : State) (id : Nat) : State :=
  match s.xlat.jobs.get? id with
  | none => s
  | some j =>
    if !j.mayFault || j.parked.isSome || j.need.any fun n => !j.resolved n then s
    else
      match j.firstFail with
      | some (n, c) =>
        if (c == 1 || c == 3) && j.fails.all fun f => f.2 == 1 || f.2 == 3 then s.park id j n.page c else s
      | none => s

/-- Carries a translation record as far as the caches and outstanding answers allow. -/
def advance (s : State) (id : Nat) : State :=
  match s.xlat.jobs.get? id with
  | none => s
  | some j => if j.remark || j.parked.isSome then s else (j.need.foldl (fun s n => s.seek id n) s).settle id

/-- Begins a translation. -/
def startJob (s : State) (j : XJob) : State × Nat :=
  let (s, id) := s.newJob j
  (s.advance id, id)

/-- Translates a record again in full (R472, R518). -/
def restartJob (s : State) (id : Nat) : State :=
  match s.xlat.jobs.get? id with
  | none => s
  | some j =>
    (s.setJob id { j with got := [], fails := [], asked := [], remark := false, parked := none }).advance id

/-- Every record that still waits tries again: an answer has come, or a limit has room (R437, R441). -/
def advanceAll (s : State) : State := s.xlat.jobs.keys.foldl advance s

/-- Records that wait for a page: fails or is retried. -/
def waitersOf (s : State) (ast page : Nat) : List Nat :=
  (s.xlat.jobs.cells.filter fun c =>
    c.2.ast == ast && !c.2.remark && c.2.need.any fun n => n.page == page && !c.2.resolved n).map (·.1)

/-- The fault on a record's page is answered: the translation is repeated (R450, R451); a record re-marked meanwhile is
translated again in full. -/
def unpark (s : State) (id page : Nat) : State :=
  match s.xlat.jobs.get? id with
  | none => s
  | some j =>
    let j := { j with parked := none, repeated := page :: j.repeated, fails := j.fails.filter fun f => f.1 != page }
    if j.remark then (s.setJob id j).restartJob id else (s.setJob id j).advance id

/-- The fault ended failed (R452, R453). -/
def faultFailed (s : State) (id page : Nat) : State :=
  match s.xlat.jobs.get? id with
  | none => s
  | some j => s.setJob id { j with parked := none, fails := (page, 2) :: j.fails.filter fun f => f.1 != page }

/-- Page requests that waited for the allocation go out as places come free (R454). -/
def sendWaiting (s : State) (fn : Nat) : State :=
  s.xlat.jobs.cells.foldl (fun s c =>
    match c.2.parked with
    | some (page, .allocation) => if c.2.fn = fn then s.park c.1 { c.2 with parked := none } page 1 else s
    | _ => s) s

/-! ### Invalidation (R468-R476) -/

/-- An entry overlaps an invalidated set (R469). -/
def overlaps (s : State) (sc : InvalScope) (e : XEntry) : Bool :=
  match sc with
  | .range ast lo hi => e.ast == ast && decide (e.page < hi) && decide (lo < e.page + e.span)
  | .tag ast => e.ast == ast
  | .host fn pasid lo hi =>
    e.isHost && decide (e.page < hi) && decide (lo < e.page + e.span)
      && (match s.space? e.ast with | some x => x.fn == fn && x.pasid == pasid | none => false)
  | .function fn => e.isHost && (match s.space? e.ast with | some x => x.fn == fn | none => false)
  | .polder i above =>
    match e.target with
    | .polder p o => p == i && decide (above < o + 4096 * e.span)
    | _ => false
  | .piece dpa len =>
    match e.target with
    | .polder p o =>
      match s.polder? p with
      | some q =>
        let g := min 4096 (granuleBytes q.granule)
        (List.range (4096 * e.span / g)).any fun k =>
          match q.dpa (o + k * g) with
          | some a => decide (dpa ≤ a) && decide (a < dpa + len)
          | none => false
      | none => false
    | _ => false
  | .window n => match e.target with | .window m _ => m == n | _ => false

/-- An outstanding request overlaps an invalidated set (R474). -/
def reqOverlaps (s : State) (sc : InvalScope) (ast page count : Nat) : Bool :=
  match sc with
  | .range a lo hi => a == ast && decide (page < hi) && decide (lo < page + count)
  | .tag a => a == ast
  | .host fn pasid lo hi =>
    hostHalf page && decide (page < hi) && decide (lo < page + count)
      && (match s.space? ast with | some x => x.fn == fn && x.pasid == pasid | none => false)
  | .function fn => hostHalf page && (match s.space? ast with | some x => x.fn == fn | none => false)
  | .polder _ _ | .piece _ _ | .window _ => !hostHalf page

def engineUnit (i : Nat) : Nat := if i < 32 then pumpUnit i else if i < 40 then gatherUnit (i - 32) else infuserUnit (i - 40)

/-- An engine OUT_OF_SERVICE or UNDER_TEST acknowledges at once (R473). -/
def holdsEntries (s : State) (i : Nat) : Bool :=
  match s.unitState (engineUnit i) with
  | .outOfService | .underTest => false
  | _ => true

/-- Re-marks the records of an engine that overlap: the state and how many (R471, R472). -/
def remarkEngine (s : State) (sc : InvalScope) (i : Nat) : State × Nat :=
  let hit := fun (j : XJob) => j.engine == i && !j.busy && !j.remark && j.got.any (s.overlaps sc)
  ({ s with xlat := { s.xlat with jobs := s.xlat.jobs.map fun _ j => if hit j then { j with remark := true } else j } },
   s.xlat.jobs.count fun _ j => hit j)

/-- The last step of the handshake (R166, R475). -/
def endInval (s : State) (v : Inval) : State :=
  match v.cause with
  | .command op ref =>
    if op = 0x1204 || op = 0x1205 then
      s.endRunning op ref { status := stOk, result := toLE 8 v.remarked }
    else s
  | .ats fn tag => s.emit (.invalidateComplete fn tag)
  | .atsDisabled _ | .move _ _ | .interrupted => s

/-- Begins an invalidation: shared entries drop, requests in flight are marked for discard, the broadcast goes out.
INVAL_TAG also ends the waits of its space by re-marking them (R443). -/
def beginInval (s : State) (sc : InvalScope) (cause : InvalCause) : State :=
  let tag := match sc, cause with
    | .tag a, .command _ _ => some a
    | _, _ => none
  let x := s.xlat
  let ends := fun (r : DrvReq) => tag == some r.ast
  let jobs := x.jobs.map fun _ j =>
    if tag == some j.ast && XJob.waits j then { j with remark := true, parked := none }
    else if j.engine == 48 && j.got.any (s.overlaps sc) then { j with remark := true } else j
  let s' := { s with xlat := { x with
    shared := x.shared.filter fun e => !s.overlaps sc e
    jobs := jobs
    ats := x.ats.map fun (r : AtsReq) => if s.reqOverlaps sc r.ast r.page r.count then { r with discard := true } else r
    drv := (x.drv.filter fun r => !ends r).map fun (r : DrvReq) => if s.reqOverlaps sc r.ast r.page 1 then { r with discard := true } else r } }
  let v : Inval := { scope := sc, cause := cause, waiting := (List.range 48).filter s.holdsEntries
                     remarked := x.jobs.count fun _ j => tag == some j.ast && XJob.waits j && !j.remark && decide (j.engine < 48) }
  if v.waiting.isEmpty then s'.endInval v else { s' with xlat := { s'.xlat with invals := s'.xlat.invals ++ [v] } }

/-- One engine acknowledges the oldest invalidation it still owes, if no dispatched transfer of it uses an overlapping
run (R471). -/
def ackInval (s : State) (i : Nat) : State :=
  match s.xlat.invals.find? fun v => v.waiting.contains i with
  | none => s
  | some v =>
    let (s, n) := if v.marked.contains i then (s, 0) else s.remarkEngine v.scope i
    let caches := if i < 32 then s.xlat.caches.upd [] i (fun l => l.filter fun e => !s.overlaps v.scope e) else s.xlat.caches
    let busy := s.xlat.jobs.any fun _ j => j.engine == i && j.busy && j.got.any (s.overlaps v.scope)
    let v' := { v with marked := (i :: v.marked).eraseDups, remarked := v.remarked + n,
                       waiting := if busy then v.waiting else v.waiting.filter (· != i) }
    let s := { s with xlat := { s.xlat with
      caches := caches
      invals := (s.xlat.invals.map fun w => if w == v then v' else w).filter fun w => !w.waiting.isEmpty } }
    if v'.waiting.isEmpty then s.endInval v' else s

/-- An invalidation caused by a command on a resource is still at its handshake. -/
def invalidating (s : State) (ref : Nat) : Bool :=
  s.xlat.invals.any fun v => match v.cause with | .command _ r => r == ref | _ => false

/-! ### Access counters (R465, R466) -/

def countAccess (s : State) (ast dva : Nat) : State :=
  match s.space? ast with
  | none => s
  | some x =>
    if !x.counting then s
    else
      let region := dva / 0x200000
      let old := s.xlat.hot.find? fun h => h.ast == ast && h.region == region
      let h : HotCount := match old with
        | some h => { h with count := h.count + 1 }
        | none => ⟨ast, region, 1, false⟩
      let fire := !h.reported && decide (h.count ≥ x.threshold)
      let h' := { h with reported := h.reported || fire }
      let rest := s.xlat.hot.filter fun y => !(y.ast == ast && y.region == region)
      let s := { s with xlat := { s.xlat with hot := (h' :: rest).take 4096 } }
      if fire then s.raise 0x0702 sevInfo xlatUnit [(12, ast), (27, region), (25, min h.count (2 ^ 25 - 1))] (.fn x.fn) else s

end State

end Sys2Proof.Machine
end

