-- ==== Sys2Proof/Machine/Operands.lean ====
section
/-! DEFINITION. Operand forms of engines and sequencers: address kinds and the places they reach, confinement, ownership
(chapters 11, 14, 15). -/

namespace Sys2Proof.Machine

/-- Where a byte lies. -/
inductive Place where
  /-- Host memory: translated address, and the DVA asked for. -/
  | host (hpa dva : Nat)
  | polder (index offset : Nat)
  | scratch (dpa : Nat)
  | window (n offset : Nat)
  /-- Nowhere this requester may reach. -/
  | outside
deriving DecidableEq, Repr

/-- An outbound window's place from a translation target. -/
def placeOf (t : Target) (dva : Nat) : Place :=
  match t with
  | .host h => .host h dva
  | .polder i o => .polder i o
  | .window n o => .window n o

/-- Cuts a run where its address crosses a multiple of `n`. -/
def cutAt (n : Nat) : Nat → Seg → List Seg
  | 0, g => [g]
  | fuel + 1, g =>
    let k := n - g.addr % n
    if g.len ≤ k then [g] else { g with len := k } :: cutAt n fuel ⟨g.tile + k, g.addr + k, g.len - k⟩

/-- The parts of a run between multiples of `n`. -/
def Seg.cut (n : Nat) (g : Seg) : List Seg := if g.len = 0 then [] else cutAt n (g.len / n + 2) g

/-- The parts of a run by 4 KiB page. -/
def Seg.pages (g : Seg) : List Seg := g.cut 4096

namespace State

/-- The function a caddy belongs to: the holder of its exclusive lease (R483). -/
def caddyFn (s : State) (slot : Nat) : Nat := (s.exclHolder (caddyRef slot)).getD 0

/-- Polders a program owns: home region, work polders, argument polder (chapter 14). -/
def caddyPolders (s : State) (slot : Nat) : List Nat :=
  match s.inf.caddies.get? slot with
  | none => []
  | some c =>
    (match c.home with | some (p, _) => [p] | none => []) ++ (match c.bound with | some b => b.works | none => [])
      ++ (match c.argument with | some p => [p] | none => [])

/-- Scratchpad quarters a program owns, as 4 × slice + quarter. -/
def caddyQuarters (s : State) (slot : Nat) : List Nat :=
  match s.inf.caddies.get? slot with
  | some c => match c.bound with
    | some b => b.quarters
    | none => []
  | none => []

/-- A kind 1 or 2 address of a program, confined (R331, R485, R670). -/
def confine (s : State) (slot kind addr : Nat) : Place :=
  if kind = 1 then
    match scratchOf addr with
    | some (n, q) => if (s.caddyQuarters slot).contains (4 * n + q) then .scratch addr else .outside
    | none => .outside
  else if kind = 2 then
    let i := addr / 2 ^ 48
    let o := addr % 2 ^ 48
    match s.polder? i with
    | some p => if (s.caddyPolders slot).contains i && decide (o < p.bytes) then .polder i o else .outside
    | none => .outside
  else .outside

/-- A run of `len` bytes from an address stays inside. -/
def confined (s : State) (slot kind addr len : Nat) : Bool :=
  s.confine slot kind addr != .outside && (len = 0 || s.confine slot kind (addr + len - 1) != .outside)

/-- The place of an address of some kind, kind 0 through a translation record. -/
def place (s : State) (slot : Nat) (job : Option Nat) (kind addr : Nat) : Place :=
  if kind = 0 then
    match job with
    | some id => match s.xlat.jobs.get? id with
      | some j => match j.reach addr with
        | some (t, _) => placeOf t addr
        | none => .outside
      | none => .outside
    | none => .outside
  else s.confine slot kind addr

/-- Reads bytes of a local place; a host or window place answers nothing here. -/
def readPlace (s : State) (p : Place) (len : Nat) (alloc : Bool) : State × ReadOut :=
  match p with
  | .polder i o => s.polderRead i o len alloc
  | .scratch a => (s, s.scratchRead a len)
  | _ => (s, ⟨List.replicate len 0, some .uncorrectable⟩)

/-- Writes bytes to a local place. -/
def writePlace (s : State) (p : Place) (bs : Bytes) : State :=
  match p with
  | .polder i o => s.polderWrite i o bs
  | .scratch a => s.scratchWrite a bs
  | _ => s

end State

end Sys2Proof.Machine
end

