-- ==== Sys2Proof/Machine/SeqCore.lean ====
section
/-! DEFINITION. Sequencer state, tokens and the pool, traps and the way work reports back (chapters 05, 14, 15). -/

namespace Sys2Proof.Machine

namespace State

def sq (s : State) (q : Nat) : Sequencer := s.prog.seqs.get {} q

def setSq (s : State) (q : Nat) (x : Sequencer) : State := { s with prog := { s.prog with seqs := s.prog.seqs.set q x } }

def modSq (s : State) (q : Nat) (f : Sequencer → Sequencer) : State := s.setSq q (f (s.sq q))

/-! ### The pool (R193, R170, R546, R641-R645) -/

/-- Tokens that triggered SO_DIE_THERMAL orders take. -/
def poolShrink (s : State) : Nat :=
  (mandatoryDie.map fun r =>
    let o := s.orders.get {} (refId r)
    if o.armed && o.triggered then fieldAt o.inForce 6 2 else 0).foldl (· + ·) 0

def pool (s : State) : Nat := max 80 (720 - s.poolShrink - s.power.reduction)

/-- Infuser jobs of the warden that run: 40 tokens each (R546). -/
def wardenJobs (s : State) : Nat :=
  s.inf.units.total fun _ u => (u.jobs.filter fun j => j.started && (match j.owner with | .seq _ => false | _ => true)).length

/-- Tokens reserved by admitted envelopes. -/
def reservedTokens (s : State) : Nat := s.inf.caddies.total (fun _ c => c.envelope) + 40 * s.wardenJobs

/-- Tokens held by all programs. -/
def heldTokens (s : State) : Nat := s.prog.seqs.total fun _ x => x.held

/-- Tokens held by the sequencers of one program. -/
def heldBy (s : State) (program : Nat) : Nat := s.prog.seqs.total fun _ x => if x.program = program then x.held else 0

/-- Grants waiting requests whole and in order, as far as the pool allows (R642, R643). -/
def grantTokens : Nat → State → State
  | 0, s => s
  | fuel + 1, s =>
    match s.prog.queue with
    | [] => s
    | r :: rest =>
      if s.heldTokens + r.n ≤ s.pool then
        let s := { s with prog := { s.prog with queue := rest } }
        grantTokens fuel (s.modSq r.seq fun x =>
          { x with held := x.held + r.n, wait := none, pc := (x.pc + 1) % 8192, waited := x.waited + (s.now - x.waitFrom) })
      else s

/-! ### Traps (R649, R650, R703) -/

/-- A sequencer traps: EV_SEQ_TRAP names the instruction that failed or issued the failing operation. -/
def trapSeq (s : State) (q index : Nat) (t : Trap) : State :=
  let x := s.sq q
  let s := { s with prog := { s.prog with queue := s.prog.queue.filter fun r => r.seq != q } }
  let s := s.setSq q { x with state := .trapped, wait := none, held := x.inUse }
  s.raise 0x0B01 sevDegraded (seqUnit q) [(8, t.cause), (8, t.status), (13, index), (3, 0), (48, t.addr), (16, t.unit)]

/-- A unit's work for a sequencer has ended: the record is on its way (R681, R683, R702). -/
def reportOp (s : State) (tag : SeqTag) (d : OpDone) : State :=
  if (s.sq tag.seq).program = tag.program then
    s.modSq tag.seq fun x => { x with ops := x.ops.map fun o => if o.id = tag.op then { o with done := some d } else o }
  else s

end State

namespace Sequencer

/-- Register i; s0 reads zero (R625). -/
def reg (x : Sequencer) (i : Nat) : BitVec 64 := if i = 0 then 0 else x.regs.get 0 i

def setReg (x : Sequencer) (i : Nat) (v : BitVec 64) : Sequencer := if i = 0 then x else { x with regs := x.regs.set i v }

/-- Bytes of local scratch; unwritten bytes are zero. -/
def read (x : Sequencer) (a n : Nat) : Bytes := (List.range n).map fun i => (Bank.find x.scratch (a + i)).getD 0

/-- Writes local scratch; a word written whole is clean again (R673). -/
def write (x : Sequencer) (a : Nat) (bs : Bytes) : Sequencer :=
  { x with scratch := splice x.scratch a bs
           badWords := x.badWords.filter fun w => !(decide (a ≤ 8 * w) && decide (8 * w + 8 ≤ a + bs.length)) }

/-- Words of a run that are uncorrectable. -/
def badIn (x : Sequencer) (a n : Nat) : Bool := x.badWords.any fun w => decide (8 * w < a + n) && decide (a < 8 * w + 8)

/-- A counter gains a value, saturating (R638). -/
def bump (x : Sequencer) (j v : Nat) : Sequencer := { x with counters := x.counters.set j (min 65535 (x.counters.get 0 j + v)) }

end Sequencer

end Sys2Proof.Machine
end

