-- ==== Sys2Proof/Machine/D2d.lean ====
section
/-! DEFINITION. Cluster ports: groups, CRC, credits and sending (chapter 16). -/

namespace Sys2Proof.Machine

/-- One bit into the CRC register. -/
def crcBit (crc : Nat) (b : Bool) : Nat :=
  let x := crc * 2 % 65536
  if bitOf crc 15 != b then x ^^^ 0x8BB7 else x

def crcByte (crc b : Nat) : Nat := (List.range 8).foldl (fun c i => crcBit c (bitOf b (7 - i))) crc

/-- CRC-16 of a byte run (R710). -/
def crc16 (bs : Bytes) : Nat := bs.foldl (fun c b => crcByte c b.toNat) 0xFFFF

/-- Half marks (Table 16-3). -/
def markData : Nat := 0
def markQuiet : Nat := 1
def markSkip : Nat := 2
def markPoison : Nat := 3

/-- Group types (Table 16-2). -/
def grpIdle : Nat := 0
def grpStream : Nat := 1
def grpAperture : Nat := 2
def grpCtrl : Nat := 3

/-- Credit unit of a group: a stream unit, 8 for the aperture path. -/
def creditUnit (g : Group) : Nat := if g.type = grpAperture then 8 else g.unit

namespace State

def port (s : State) (c : Nat) : ClusterPort := s.d2d.clusters.get {} c

def setPort (s : State) (c : Nat) (p : ClusterPort) : State :=
  { s with d2d := { s.d2d with clusters := s.d2d.clusters.set c p } }

def die (s : State) (d : Nat) : Die := s.d2d.dies.get {} d

def setDie (s : State) (d : Nat) (x : Die) : State := { s with d2d := { s.d2d with dies := s.d2d.dies.set d x } }

/-- The endpoint of a stream unit in a direction. -/
def endpointOf (s : State) (c unit dir : Nat) : Option Endpoint := (s.port c).bindings.get? (2 * unit + dir)

/-- The cluster and stream unit an endpoint serves in a direction (R720). -/
def boundTo (s : State) (e : Endpoint) (dir : Nat) : Option (Nat × Nat) :=
  s.d2d.clusters.cells.findSome? fun c =>
    (c.2.bindings.find? fun k v => k % 2 == dir && decide (v = e)).map fun b => (c.1, b.1 / 2)

end State

/-- The 128 data bytes of a group as they stand on the wires, and the levels it leaves (R711). -/
def wireData (levels : Bytes) (g : Group) : Bytes × Bytes :=
  let half := fun (lv : Bytes) (mark : Nat) (bs : Bytes) =>
    if mark = markData && g.type != grpIdle then (fitBytes 64 bs, (fitBytes 64 bs).drop 48) else ((List.replicate 4 lv).flatten, lv)
  let (h0, l0) := half levels g.mark0 (g.data.take 64)
  let (h1, l1) := half l0 g.mark1 (g.data.drop 64)
  (h0 ++ h1, l1)

/-- Sends one group on a cluster's stream path with its acknowledgement, a due credit total and its CRC (R709-R711,
R713, R722). -/
def State.putGroup (s : State) (c : Nat) (g : Group) (nak : Bool) : State :=
  let p := s.port c
  let (data, levels) := wireData p.levels g
  let cu := p.due.headD 15
  let side := packBits [(7, g.seq), (3, g.type), (3, g.unit), (2, g.mark0), (2, g.mark1), (1, natOf g.last), (1, 1),
    (7, (p.stream.rxSeq + 127) % 128), (1, natOf nak), (4, cu), (8, p.freed.get 0 cu), (9, 0)]
  let crc := crc16 (data ++ toLE 6 side)
  (s.setPort c { p with levels := levels, due := p.due.drop 1 }).emit (.d2d c 0 (data ++ toLE 6 side ++ toLE 2 crc))

/-- A group may go: a place in the replay buffer, and credit for its unit (R714, R722). -/
def ClusterPort.maySend (p : ClusterPort) (g : Group) : Bool :=
  decide (p.stream.unacked.length < 64)
    && (g.type == grpCtrl || p.sent.get 0 (creditUnit g) != p.credit.get 0 (creditUnit g))

/-- The next group to send: CTRL first, then units in rotating order (R723). -/
def ClusterPort.pick (p : ClusterPort) : Option Group :=
  match p.txq.find? fun g => g.type == grpCtrl with
  | some g => if p.maySend g then some g else none
  | none =>
    ((List.range 9).map fun i => (p.rr + 1 + i) % 9).findSome? fun u =>
      match p.txq.find? fun g => creditUnit g == u with
      | some g => if p.maySend g then some g else none
      | none => none

/-- Removes the first occurrence. -/
def dropFirst {α : Type} [DecidableEq α] (x : α) : List α → List α
  | [] => []
  | y :: t => if x = y then t else y :: dropFirst x t

namespace State

/-- Sends what credit and the replay buffer let go (R714, R722, R723). -/
def drain : Nat → Nat → State → State
  | 0, _, s => s
  | fuel + 1, c, s =>
    let p := s.port c
    match if p.dead then none else p.pick with
    | none => s
    | some g =>
      let g' := { g with seq := p.stream.txSeq }
      let u := creditUnit g
      let link := { p.stream with txSeq := (p.stream.txSeq + 1) % 128, unacked := p.stream.unacked ++ [g'] }
      let sent := if g.type = grpCtrl then p.sent else p.sent.set u ((p.sent.get 0 u + 1) % 256)
      let p' := { p with txq := dropFirst g p.txq, stream := link, sent := sent, rr := if g.type = grpCtrl then p.rr else u }
      drain fuel c ((s.setPort c p').putGroup c g' false)

/-- Queues groups for a cluster and sends what may go. -/
def sendGroups (s : State) (c : Nat) (gs : List Group) : State :=
  let p := s.port c
  if p.dead then s
  else drain (p.txq.length + gs.length) c (s.setPort c { p with txq := p.txq ++ gs })

/-- An IDLE group: acknowledgements and credit totals only. -/
def sendIdle (s : State) (c : Nat) (nak : Bool) : State := s.putGroup c { type := grpIdle } nak

end State

/-- Halves of a stream, two to a group; the last group ends the operation (R724). A group with one half left over
fills the other with a marker whose kind the spec leaves open. -/
def packHalves (unit filler : Nat) : List (Nat × Bytes) → List Group
  | [] => []
  | [a] => [{ type := grpStream, unit := unit, mark0 := a.1, mark1 := filler, last := true, data := a.2 }]
  | [a, b] => [{ type := grpStream, unit := unit, mark0 := a.1, mark1 := b.1, last := true, data := fitBytes 64 a.2 ++ b.2 }]
  | a :: b :: t =>
    { type := grpStream, unit := unit, mark0 := a.1, mark1 := b.1, data := fitBytes 64 a.2 ++ b.2 } :: packHalves unit filler t

namespace State

/-- Sends 64-byte halves on a stream unit. -/
def sendHalves (s : State) (c unit : Nat) (hs : List (Nat × Bytes)) : State :=
  (s.sendGroups c (packHalves unit (1 + s.freeNat % 3) hs)).tickFree

/-- Groups of a stream unit still waiting to go. -/
def unsent (s : State) (c unit : Nat) : Bool := (s.port c).txq.any fun g => g.type == grpStream && g.unit == unit

/-- Frees received groups of a unit: the total rises and is sent (R722). -/
def freeGroups (s : State) (c unit n : Nat) : State :=
  if n = 0 then s
  else
    let p := s.port c
    let p := { p with freed := p.freed.set unit ((p.freed.get 0 unit + n) % 256), due := (p.due ++ [unit]).eraseDups }
    (s.setPort c p).sendIdle c false

/-- Takes up to `n` received bytes of a stream unit, group by group. -/
def takeInbox (s : State) (c unit n : Nat) : State × Bytes :=
  let p := s.port c
  let q := p.inbox.get [] unit
  let step := fun (acc : List Bytes × Bytes × Nat) (g : Bytes) =>
    let (left, out, freed) := acc
    let want := n - out.length
    if want = 0 then (left ++ [g], out, freed)
    else if g.length ≤ want then (left, out ++ g, freed + 1)
    else (left ++ [g.drop want], out ++ g.take want, freed)
  let (left, out, freed) := q.foldl step ([], [], 0)
  ((s.setPort c { p with inbox := p.inbox.set unit left }).freeGroups c unit freed, out)

/-- Sends CTRL messages of 16 bytes, eight to a group (Table 16-5). -/
def sendCtrl (s : State) (c : Nat) (msg : Bytes) : State :=
  s.sendGroups c [{ type := grpCtrl, data := fitBytes 128 msg }]

end State

end Sys2Proof.Machine
end

