-- ==== Sys2Proof/Machine/LinkCode.lean ====
section
/-! DEFINITION. What a link port does between its flits and its lanes: the FEC, the distribution over lanes, scrambling, PAM4
levels, stuffing and slack, both ways (R750-R758). -/

namespace Sys2Proof.Machine

/-! ### The field and the code (R751) -/

/-- Products in GF(2^10) with field polynomial x^10 + x^3 + 1. -/
def fecMul (a b : Nat) : Nat := fieldMul 10 0x409 10 a b

/-- α = 0x002 to the power `i`. -/
def fecPow (i : Nat) : Nat := (List.range i).foldl (fun x _ => fecMul 2 x) 1

/-- The inverse of a symbol, its 1022nd power; zero for zero. -/
def fecInv (a : Nat) : Nat :=
  ((List.range 9).foldl (fun (p : Nat × Nat) _ => let q := fecMul p.1 p.1; (q, fecMul p.2 q)) (a, 1)).2

/-- g(x) = (x + α^0)(x + α^1) … (x + α^7), without its leading 1, highest coefficient first. -/
def fecGenerator : List Nat :=
  ((List.range 8).foldl (fun g i => List.zipWith (fun a b => a ^^^ fecMul (fecPow i) b) (g ++ [0]) (0 :: g)) [1]).drop 1

/-- One symbol more of the division by g. -/
def fecDivide (rem : List Nat) (sym : Nat) : List Nat :=
  let q := sym ^^^ rem.head?.getD 0
  List.zipWith (fun a b => a ^^^ fecMul q b) (rem.drop 1 ++ [0]) fecGenerator

/-- A codeword of RS(136,128): 128 data symbols and their 8 parity symbols. -/
def fecEncode (data : List Nat) : List Nat := data ++ data.foldl fecDivide (List.replicate 8 0)

/-- The value of a word at a field element, its first symbol the highest coefficient. -/
def fecEval (word : List Nat) (x : Nat) : Nat := word.foldl (fun v c => fecMul v x ^^^ c) 0

/-- The eight syndromes of a received word; all zero for a codeword. -/
def fecSyndromes (word : List Nat) : List Nat := (List.range 8).map fun i => fecEval word (fecPow i)

/-- What the search for the error locator holds: the locator and the last one it left, lowest coefficient first, the count of
errors, the distance and the discrepancy of the last change. -/
structure Locating where
  loc : List Nat := [1]
  old : List Nat := [1]
  count : Nat := 0
  gap : Nat := 1
  last : Nat := 1

/-- The next syndrome taken into the locator. -/
def locateNext (syn : List Nat) (z : Locating) (n : Nat) : Locating :=
  let at_ := fun (l : List Nat) i => (l[i]?).getD 0
  let d := (List.range (z.count + 1)).foldl (fun d i => d ^^^ (if i ≤ n then fecMul (at_ z.loc i) (at_ syn (n - i)) else 0)) 0
  if d = 0 then { z with gap := z.gap + 1 }
  else
    let shifted := List.replicate z.gap 0 ++ z.old.map (fecMul (fecMul d (fecInv z.last)))
    let loc := (List.range (max z.loc.length shifted.length)).map fun i => at_ z.loc i ^^^ at_ shifted i
    if 2 * z.count ≤ n then { loc := loc, old := z.loc, count := n + 1 - z.count, gap := 1, last := d }
    else { z with loc := loc, gap := z.gap + 1 }

/-- The error of each of the 136 positions that the syndromes tell, or none where they tell none of at most four errors. -/
def fecErrors (syn : List Nat) : Option (List Nat) :=
  let z := (List.range 8).foldl (locateNext syn) {}
  let value := fun (l : List Nat) (x : Nat) => fecEval l.reverse x
  let omega := (List.range 8).map fun i =>
    (List.range (i + 1)).foldl (fun v j => v ^^^ fecMul ((z.loc[j]?).getD 0) ((syn[i - j]?).getD 0)) 0
  let slope := (List.range z.loc.length).map fun i => if i % 2 = 0 then (z.loc[i + 1]?).getD 0 else 0
  let errs := (List.range 136).map fun p =>
    let x := fecPow (135 - p)
    let xi := fecInv x
    if value z.loc xi = 0 then fecMul x (fecMul (value omega xi) (fecInv (value slope xi))) else 0
  if z.count ≤ 4 && (errs.filter (· != 0)).length == z.count then some errs else none

/-- What decoding makes of a received word. -/
inductive FecOutcome where
  | clean
  /-- Corrected; errors in parity symbols only. -/
  | parity
  | corrected
  | uncorrectable
deriving DecidableEq, Repr

/-- Decoding: up to four symbol errors are corrected; else the word stands as received (R751). -/
def fecDecode (word : List Nat) : List Nat × FecOutcome :=
  let syn := fecSyndromes word
  if syn.all (· == 0) then (word, .clean)
  else match fecErrors syn with
    | none => (word, .uncorrectable)
    | some errs => (List.zipWith (· ^^^ ·) word errs, if (errs.take 128).all (· == 0) then .parity else .corrected)

/-! ### Bits, blocks and lanes (R752, R753) -/

/-- Pieces of `n` elements, `k` of them. -/
def pieces {α : Type} (n : Nat) : Nat → List α → List (List α)
  | 0, _ => []
  | k + 1, l => l.take n :: pieces n k (l.drop n)

/-- The bits of a byte, or of a symbol of `n` bits, the highest first. -/
def bitsHigh (n v : Nat) : List Nat := (List.range n).map fun i => v / 2 ^ (n - 1 - i) % 2

def fromHigh (bits : List Nat) : Nat := bits.foldl (fun v b => 2 * v + b) 0

/-- The 8,704 data symbols of a superframe of 160 flits (R753). -/
def flitSymbols (flits : List Bytes) : List Nat :=
  (pieces 10 8704 (flits.flatMap fun f => (fitBytes 68 f).flatMap fun b => bitsHigh 8 b.toNat)).map fromHigh

/-- The 68 codewords of a superframe, four to a block. -/
def encodeWords (symbols : List Nat) : List (List Nat) := (pieces 128 68 symbols).map fecEncode

/-- A lane's 2,312 symbols: the i-th of a block is symbol i of codeword (lane + i) mod 4 (R752). -/
def laneSymbols (words : List (List Nat)) (lane : Nat) : List Nat :=
  (pieces 4 17 words).flatMap fun block => (List.range 136).map fun i =>
    ((block[(lane + i) % 4]?).bind fun w => w[i]?).getD 0

/-- The codewords of the four lanes' symbols, as received. -/
def wordsOfLanes (lanes : List (List Nat)) : List (List Nat) :=
  (List.range 17).flatMap fun b => (List.range 4).map fun c => (List.range 136).map fun i =>
    ((lanes[(c + 3 * i) % 4]?).bind fun l => l[136 * b + i]?).getD 0

/-! ### A lane: scrambling, levels, stuffing (R754-R758) -/

/-- The bit that R754 adds to the next one. -/
def tapsOf (reg : Nat) : Nat := (reg / 2 ^ 38 + reg / 2 ^ 57) % 2

def shiftReg (reg bit : Nat) : Nat := (2 * reg + bit) % 2 ^ 58

/-- Scrambled bits, newest first, and the register they leave. -/
def scrambleBit (z : Nat × List Nat) (b : Nat) : Nat × List Nat :=
  let o := (b + tapsOf z.1) % 2
  (shiftReg z.1 o, o :: z.2)

def descrambleBit (z : Nat × List Nat) (b : Nat) : Nat × List Nat := (shiftReg z.1 b, (b + tapsOf z.1) % 2 :: z.2)

/-- The level of two bits, the earlier first (R755), and the bits of a level. -/
def grayLevel (b1 b0 : Nat) : Nat := if b1 = 0 then b0 else 3 - b0

def grayBits (level : Nat) : List Nat := if level < 2 then [0, level] else [1, 3 - level]

/-- A symbol counted on the line (R756, R757). -/
def laneCount (x : LinkLane) (level : Nat) : LinkLane :=
  { x with level := level, run := if level = x.level then x.run + 1 else 1 }

/-- One symbol sent, with the stuff symbol that a run of 31 asks for; symbols newest first (R756, R758). -/
def sendSymbol (z : LinkLane × List Nat) (level : Nat) : LinkLane × List Nat :=
  let x := laneCount z.1 level
  if x.run = 31 then
    let stuff := if level < 2 then 3 else 0
    ({ x with level := stuff, run := 1, debt := x.debt + 1 }, stuff :: level :: z.2)
  else (x, level :: z.2)

/-- The scrambler after a superframe's symbols, and their levels (R754, R755). -/
def levelsOf (reg : Nat) (symbols : List Nat) : Nat × List Nat :=
  let out := (symbols.flatMap (bitsHigh 10)).foldl scrambleBit (reg, [])
  (out.1, (pieces 2 (out.2.length / 2) out.2.reverse).map fun b => grayLevel ((b[0]?).getD 0) ((b[1]?).getD 0))

/-- The slack field of a superframe: four symbols less what is owed, and what is still owed (R758). -/
def sendSlack (z : LinkLane × List Nat) : LinkLane × List Nat :=
  (([0, 3, 0, 3] : List Nat).take (4 - z.1.debt)).foldl sendSymbol ({ z.1 with debt := z.1.debt - 4 }, z.2)

/-- One superframe of a lane sent: scrambled, mapped, stuffed, and its slack field (R754-R758). -/
def sendFrame (x : LinkLane) (symbols : List Nat) : LinkLane × List Nat :=
  let out := levelsOf x.reg symbols
  let sent := sendSlack (out.2.foldl sendSymbol ({ x with reg := out.1 }, []))
  (sent.1, sent.2.reverse)

/-- A superframe being received on a lane: its symbols kept, newest first, those still to come, stuff violations, and whether
its slack field has begun. -/
structure LaneScan where
  lane : LinkLane
  kept : List Nat := []
  left : Nat := 11560
  violations : Nat := 0
  slack : Bool := false

/-- One symbol received: the one after a run of 31 is removed (R756, R757), those of the slack field too (R758). -/
def scanSymbol (z : LaneScan) (level : Nat) : LaneScan :=
  if z.lane.run = 31 then
    { z with lane := { z.lane with level := level, run := 1, debt := z.lane.debt + 1 }
             violations := z.violations + (if level = z.lane.level then 1 else 0) }
  else if z.left > 0 then { z with lane := laneCount z.lane level, kept := level :: z.kept, left := z.left - 1 }
  else if z.slack then { z with lane := laneCount z.lane level }
  else { z with lane := { laneCount z.lane level with debt := z.lane.debt - 4 }, slack := true }

/-- One superframe of a lane received: the lane after it, its symbols, its stuff violations. -/
def takeFrame (x : LinkLane) (line : List Nat) : LinkLane × List Nat × Nat :=
  let z := line.foldl scanSymbol { lane := x }
  let lane := if z.slack then z.lane else { z.lane with debt := z.lane.debt - 4 }
  let bits := z.kept.reverse.flatMap grayBits
  let (reg, plain) := bits.foldl descrambleBit (x.reg, [])
  ({ lane with reg := reg }, (pieces 10 2312 plain.reverse).map fromHigh, z.violations)

/-- The flits of a superframe's data symbols, and for each whether an uncorrectable codeword covers any of its bits (R766). -/
def flitsOf (decoded : List (List Nat × FecOutcome)) : List (Bytes × Bool) :=
  let bits := (decoded.flatMap fun w => w.1.take 128).flatMap (bitsHigh 10)
  ((pieces 544 160 bits).zipIdx).map fun f =>
    let bytes := (pieces 8 68 f.1).map fun b => BitVec.ofNat 8 (fromHigh b)
    let covers := fun w => match (decoded[w]?).map (·.2) with | some .uncorrectable => true | _ => false
    (bytes, covers (544 * f.2 / 1280) || covers ((544 * f.2 + 543) / 1280))

end Sys2Proof.Machine
end

