-- ==== Sys2Proof/Machine/LinkCore.lean ====
section
/-! DEFINITION. Link ports: flits, segments, credits, transactions and trunks (chapter 17). -/

namespace Sys2Proof.Machine

/-- Port states (Table 17-2). -/
def portOff : Nat := 0
def portDetect : Nat := 1
def portEqualise : Nat := 2
def portAlign : Nat := 3
def portIdentify : Nat := 4
def portActive : Nat := 5
def portQuarantine : Nat := 6
def portQualify : Nat := 7
def portRetrain : Nat := 8

/-- Transaction classes. -/
def clsReq : Nat := 0
def clsCpl : Nat := 1
def clsMgmt : Nat := 2

/-- One bit into the flit CRC register (R760). -/
def flitCrcBit (crc : Nat) (b : Bool) : Nat :=
  let x := crc * 2 % 65536
  if bitOf crc 15 != b then x ^^^ 0xC867 else x

/-- CRC-16 of the flit and of training frames (R760). -/
def flitCrc (bs : Bytes) : Nat :=
  bs.foldl (fun c b => (List.range 8).foldl (fun c i => flitCrcBit c (bitOf b.toNat (7 - i))) c) 0xFFFF

/-- A flit as it goes on the line (R759, R760, Table 17-5): header, payload and CRC, the most significant bit first. -/
def flitBytes (kind seq ack : Nat) (payload : Bytes) : Bytes :=
  let head := kind + 4 * (seq + 128 * ack)
  let b := BitVec.ofNat 8 (head / 256) :: BitVec.ofNat 8 head :: fitBytes 64 payload
  let crc := flitCrc b
  b ++ [BitVec.ofNat 8 (crc / 256), BitVec.ofNat 8 crc]

/-- The keys of the link are loaded. -/
def LinkPort.keyed (x : LinkPort) : Bool := x.keys.isSome

/-- The nonce of segment m: the salt of its direction, and m in 64 bits, big-endian (R763). -/
def segmentNonce (salt : Bytes) (m : Nat) : List Nat := ((fitBytes 4 salt) ++ (toLE 8 m).reverse).map (·.toNat)

/-- The i-th payload of segment m, encrypted or decrypted (R761, R763). -/
def segmentText (key : Nat) (salt : Bytes) (m i : Nat) (payload : Bytes) : Bytes :=
  gcmText key (segmentNonce salt m) (4 * i) payload

/-- The tag of segment m over its ciphertext, its count as associated data (R763). -/
def segmentTag (key : Nat) (salt : Bytes) (m count : Nat) (text : Bytes) : Bytes :=
  gcmTag key (segmentNonce salt m) (toLE 1 count) text

namespace State

def lport (s : State) (p : Nat) : LinkPort := s.link.ports.get {} p

def setLport (s : State) (p : Nat) (x : LinkPort) : State := { s with link := { s.link with ports := s.link.ports.set p x } }

def portUp (s : State) (p : Nat) : Bool := (s.lport p).state == portActive

/-- The port is ACTIVE and its island's clock runs, so that transactions pass through it (R44). -/
def portTalks (s : State) (p : Nat) : Bool := s.portUp p && !s.islandHalted (92 + p)

def trunkOf (s : State) (p : Nat) : Option Nat := (s.link.trunks.find? fun _ m => bitOf m p).map (·.1)

/-- A flit given to the line, with the last accepted seq as ack_seq. -/
def putFlit (s : State) (p kind seq : Nat) (payload : Bytes) : State :=
  let x := s.lport p
  let f := flitBytes kind seq ((x.rxSeq + 127) % 128) payload
  (s.setLport p { x with line := x.line ++ [f] }).emit (.flit p kind f)

/-- The next superframe goes out on the four lanes: the flits given to the line, IDLE flits where there are fewer than 160
(R750-R758). -/
def putSuperframe (s : State) (p : Nat) : State :=
  let x := s.lport p
  let idle := flitBytes 0 0 ((x.rxSeq + 127) % 128) []
  let flits := x.line.take 160
  let words := encodeWords (flitSymbols (flits ++ List.replicate (160 - flits.length) idle))
  let sent := (List.range 4).map fun l => sendFrame ((x.txLanes[l]?).getD {}) (laneSymbols words l)
  (s.setLport p { x with line := x.line.drop 160, txLanes := sent.map (·.1) }).emit (.lanes p (sent.map (·.2)))

/-- A LINK flit: nak, retrain, credit totals (Table 17-5). -/
def putLink (s : State) (p : Nat) (nak retrain : Bool) : State :=
  let x := s.lport p
  s.putFlit p 3 0 (toLE 1 (natOf nak + 2 * natOf retrain) ++ toLE 1 0 ++ toLE 2 (x.freed.get 0 0) ++ toLE 2 (x.freed.get 0 1)
    ++ toLE 2 (x.freed.get 0 2))

/-- Classes the port may send in its state (R779, Table 17-2). -/
def mayClass (x : LinkPort) (cls : Nat) : Bool :=
  x.state == portActive
    || (cls == clsMgmt && x.keyed && (x.state == portQuarantine || x.state == portIdentify || x.state == portRetrain))

/-- Sends a sequenced flit and keeps it (R768). -/
def putSequenced (s : State) (p kind : Nat) (payload : Bytes) : State :=
  let x := s.lport p
  let f : SentFlit := ⟨x.txSeq, kind, payload, 0⟩
  (s.setLport p { x with txSeq := (x.txSeq + 1) % 128, unacked := x.unacked ++ [f]
                         ackedAt := if x.unacked.isEmpty then s.now else x.ackedAt }).putFlit p kind f.seq payload

/-- Closes the open segment (R762, R763): its TAG flit carries its tag, its number and its count. -/
def closeSegment (s : State) (p : Nat) : State :=
  let x := s.lport p
  if x.segCount = 0 || x.unacked.length ≥ 96 then s
  else
    let k := x.keys.getD {}
    let s := s.putSequenced p 2 (segmentTag k.txKey k.txSalt x.segment x.segCount x.segText ++ toLE 8 x.segment ++ toLE 1 x.segCount)
    s.setLport p { s.lport p with segment := x.segment + 1, segCount := 0, segText := [] }

/-- Sends what credit and the 96 places let go, a completion never behind a request (R768, R770, R771); each payload is
encrypted as its flit gets its sequence number (R761). -/
def drainPort : Nat → Nat → State → State
  | 0, _, s => s
  | fuel + 1, p, s =>
    let s := if (s.lport p).segCount ≥ 127 then s.closeSegment p else s
    let x := s.lport p
    let ready := fun (c : Nat × Bytes) => mayClass x c.1 && x.sent.get 0 c.1 != x.credit.get 0 c.1
    match if x.unacked.length ≥ 96 || x.segCount ≥ 127 then none else x.txq.find? ready with
    | none => s.closeSegment p
    | some c =>
      let k := x.keys.getD {}
      let text := segmentText k.txKey k.txSalt x.segment x.segCount (fitBytes 64 (toLE 1 c.1 ++ c.2))
      let s := s.setLport p { x with txq := dropFirst c x.txq, sent := x.sent.set c.1 ((x.sent.get 0 c.1 + 1) % 65536)
                                     segCount := x.segCount + 1, segText := x.segText ++ text }
      drainPort fuel p (s.putSequenced p 1 text)

/-- Chunks of 63 bytes, the last filled with zeros: each transaction begins a flit (DESIGN CHOICE, log entry 15). -/
def chunks63 : Nat → Bytes → List Bytes
  | 0, _ => []
  | fuel + 1, bs => if bs.isEmpty then [] else fitBytes 63 (bs.take 63) :: chunks63 fuel (bs.drop 63)

/-- Queues a transaction on a port and sends what may go. -/
def sendLink (s : State) (p cls : Nat) (bs : Bytes) : State :=
  let s := s.emit (.link p (cls :: bs.map (·.toNat)))
  let x := s.lport p
  let q := x.txq ++ (chunks63 (bs.length / 63 + 1) bs).map fun c => (cls, c)
  drainPort (q.length + 2) p (s.setLport p { x with txq := q })

end State

/-- Element size of a reducer type (Table 13-1); operand bytes of `n` elements. -/
def elemBytes (type : Nat) : Nat := match type with | 0 | 2 => 4 | 1 => 8 | 3 | 4 => 2 | 5 | 6 => 16 | _ => 0

/-- Length of the transaction at the front of a byte run, none while its header is not whole (Tables 18-3, 18-5). -/
def txLength (cls : Nat) (bs : Bytes) : Option Nat :=
  if cls = clsMgmt then
    if byteAt bs 0 = 2 then some 32 else if bs.length < 105 then none else some (108 + 4 * byteAt bs 104)
  else if bs.length < 24 then none
  else
    let n := fieldAt bs 4 2
    match byteAt bs 0 with
    | 2 => some (24 + n)
    | 3 => some (24 + n % 32 * elemBytes (n / 256 % 8))
    | 4 => some (24 + n)
    | _ => some 24

/-- Splits received bytes of one class into transactions: those whole, and what is left; a zero byte where a
transaction would begin fills the flit. -/
def splitTx : Nat → Nat → Bytes → List Bytes × Bytes
  | 0, _, bs => ([], bs)
  | fuel + 1, cls, bs =>
    if byteAt bs 0 = 0 then ([], [])
    else
      match txLength cls bs with
      | none => ([], bs)
      | some n =>
        if bs.length < n then ([], bs)
        else
          let (t, r) := splitTx fuel cls (bs.drop n)
          (bs.take n :: t, r)

namespace State

/-- One released chunk: whole transactions are passed on; outside ACTIVE, REQ and CPL are discarded and counted
(R764, R779). -/
def passChunk (s : State) (p : Nat) (c : Nat × Bytes) : State :=
  let x := s.lport p
  let (done, rest) := splitTx 64 c.1 (x.rxPart.get [] c.1 ++ c.2)
  let x := { x with rxPart := x.rxPart.set c.1 rest, freed := x.freed.set c.1 ((x.freed.get 0 c.1 + 1) % 65536) }
  if c.1 > clsMgmt then s
  else if x.state = portQuarantine && c.1 ≠ clsMgmt then
    s.setLport p { x with discarded := min 255 (x.discarded + done.length) }
  else s.setLport p { x with arrived := x.arrived ++ done.map fun t => (c.1, t) }

/-- The transactions of a verified segment, decrypted (R764); credit totals are sent (R770). -/
def passSegment (s : State) (p : Nat) : State :=
  let x := s.lport p
  let k := x.keys.getD {}
  let plain := x.rxHeld.zipIdx.map fun t => segmentText k.rxKey k.rxSalt x.rxSegment t.2 t.1
  let s := plain.foldl (fun s b => s.passChunk p (byteAt b 0 % 4, b.drop 1)) s
  let x := s.lport p
  (s.setLport p { x with rxHeld := [], rxSegment := x.rxSegment + 1 }).putLink p false false

/-- Takes the first passed-on transaction that meets a condition. -/
def takeArrived (s : State) (p : Nat) (ok : Nat → Bytes → Bool) : State × Option Bytes :=
  let x := s.lport p
  match x.arrived.find? fun c => ok c.1 c.2 with
  | none => (s, none)
  | some c => (s.setLport p { x with arrived := dropFirst c x.arrived }, some c.2)

/-! ### Trunks (R796) -/

/-- Ports a request to `port` may take: the port, or the ACTIVE ports of its trunk whose partner is that of the
trunk (R796, R798). -/
def routePorts (s : State) (port : Nat) : List Nat :=
  match s.link.trunks.find? fun _ m => bitOf m port && (List.range port).all fun i => !bitOf m i with
  | none => if s.portUp port then [port] else []
  | some (t, m) =>
    (List.range 48).filter fun p => bitOf m p && s.portUp p && s.link.partners.get? t == some (s.lport p).identity

/-- The port of a request to an address (R796). -/
def routePort (s : State) (port addr : Nat) : Option Nat :=
  let ps := s.routePorts port
  let k := (addr / 2 ^ 12) ^^^ (addr / 2 ^ 24) ^^^ (addr / 2 ^ 36)
  ps[k % max 1 ps.length]?

end State

end Sys2Proof.Machine
end

