-- ==== Sys2Proof/Machine/Remote.lean ====
section
/-! DEFINITION. Requests to other members of the cohort: building, tags and completions (chapter 18). -/

namespace Sys2Proof.Machine

/-- Completion statuses (Table 18-6). -/
def cplOk : Nat := 0
def cplPoison : Nat := 1
def cplNoWindow : Nat := 2
def cplRights : Nat := 3
def cplUnmapped : Nat := 4
def cplNakEpoch : Nat := 5
def cplFailed : Nat := 6
def cplNoRoute : Nat := 7

/-- REQ ops (Table 18-3). -/
def opRead : Nat := 1
def opWrite : Nat := 2
def opReduce : Nat := 3

/-- A transaction header (Table 18-3). -/
def txHeader (op tag src dst count window offset epoch : Nat) : Bytes :=
  toLE 1 op ++ toLE 1 tag ++ toLE 1 src ++ toLE 1 dst ++ toLE 2 count ++ toLE 1 window ++ toLE 1 0 ++ toLE 8 offset ++ toLE 8 epoch

namespace State

/-- A free tag of a port (R772). -/
def freeTag (s : State) (port : Nat) : Option Nat :=
  (List.range 256).find? fun t => !s.cohort.reqs.any fun r => r.port == port && r.tag == t

/-- Sends a waiting request if its port has a tag. -/
def sendReq (s : State) (r : RemoteSend) : State :=
  match s.freeTag r.port with
  | none => { s with cohort := { s.cohort with waiting := s.cohort.waiting ++ [r] } }
  | some t =>
    let q : RemoteReq := { port := r.port, tag := t, op := r.op, len := r.len, user := r.user }
    State.sendLink { s with cohort := { s.cohort with reqs := s.cohort.reqs ++ [q] } } r.port clsReq (overlay r.bytes 1 (toLE 1 t))

/-- Requests that waited for a tag go out. -/
def sendWaitingReqs (s : State) : State :=
  let w := s.cohort.waiting
  w.foldl sendReq { s with cohort := { s.cohort with waiting := [] } }

/-- Builds one REQ through outbound window `n` (R816); none when no ACTIVE port leads there. -/
def remoteAccess (s : State) (n offset op len type : Nat) (data : Bytes) (user : RemoteUser) : Option State :=
  match s.cohort.outWin.get? n with
  | none => none
  | some w =>
    let addr := w.base + offset
    match s.routePort w.port addr with
    | none => none
    | some p =>
      let count := if op = opReduce then len + 256 * type else len
      let h := txHeader op 0 s.cohort.member w.member count w.remote addr s.cohort.epoch.toNat
      some (s.sendReq { port := p, op := op, len := len, bytes := h ++ data, user := user })

end State

end Sys2Proof.Machine
end

