-- ==== Sys2Proof/Machine/Spaces.lean ====
section
/-! DEFINITION. Kymal group 0x12 and the steps of the translation island (chapters 04, 10, 19). -/

namespace Sys2Proof.Machine

/-- A 64-bit mask of a payload field. -/
def all8 : Nat := 2 ^ 64 - 1

def spaceCreateCmd : Cmd where
  opcode := 0x1201
  primary := .res
  sb := false
  creates := true
  layout := [(16, 2, 0xFFFF), (18, 2, 0xFFFF), (20, 4, 0xFFFFF)]
  ref _ k := astRef (k.u16 16)
  bad _ k := badIf (k.u16 16 > 4095) 16 ++ badIf (k.u16 18 > 127) 18
  names _ k := [astRef (k.u16 16)]
  denied _ k := k.isVf && k.u16 18 != k.master
  check6 s k := if s.functionExists (k.u16 18) then none else failState 1 0xFFFF
  check10 s k :=
    if s.xlat.spaces.any fun a x => a == k.u16 16 || (x.fn == k.u16 18 && x.pasid == k.u32 20) then
      some { status := stConflict, detail := noHolder } else none
  effect s k :=
    let x : Space := { fn := k.u16 18, pasid := k.u32 20 }
    { state := { s with xlat := { s.xlat with spaces := s.xlat.spaces.set (k.u16 16) x } }
      created := some (astRef (k.u16 16)) }

def execSpaceCreate (k : KCmd) (s : State) : Host.Outcome State Fault Refusal := .next (s.kymal spaceCreateCmd k)

/-- An AST field at byte 16 that names the primary resource. -/
def astOf (k : KCmd) : Nat := k.u16 16

def State.spaceInUse (s : State) (ast : Nat) : Bool :=
  s.pumps.chans.any fun _ c => decide (c.kind = .host) && c.ast == ast

/-- Removes an address space: its Stop Marker, translations, counters and leases (R100, R456). -/
def State.removeSpace (s : State) (ast : Nat) : State :=
  match s.space? ast with
  | none => s
  | some x =>
    let s := s.emit (.stopMarker x.fn x.pasid)
    let s := { s with xlat := { s.xlat with
      spaces := s.xlat.spaces.erase ast
      hot := s.xlat.hot.filter fun h => h.ast != ast
      drv := s.xlat.drv.filter fun r => r.ast != ast } }
    s.dropLeasesOn (astRef ast)

def spaceDestroyCmd : Cmd where
  opcode := 0x1202
  primary := .res
  lease := .excl
  accepted := true
  sb := false
  layout := [(16, 2, 0xFFFF)]
  ref _ k := astRef (astOf k)
  bad _ k := badIf (astOf k > 4095) 16
  check6 s k := (absent s (astRef (astOf k))).or (if s.spaceInUse (astOf k) then failState 2 2 else none)
  effect s k := { state := s.beginInval (.tag (astOf k)) (.command 0x1202 (astRef (astOf k))) }
  finish s r _ := if s.invalidating r.ref then none else some (s.removeSpace (refId r.ref), { status := stOk })

def execSpaceDestroy (k : KCmd) (s : State) : Host.Outcome State Fault Refusal := .next (s.kymal spaceDestroyCmd k)

/-- The outstanding request a fill answers: its id, in this space. -/
def State.driverRequest (s : State) (k : KCmd) : Option DrvReq :=
  s.xlat.drv.find? fun r => r.id == k.u32 20 && r.ast == astOf k

/-- Fields of a fill. -/
def fillFails (k : KCmd) : Bool := bitOf (k.u8 43) 7
def fillBytes (k : KCmd) : Nat := k.u16 40 * sizePages (k.u8 42) * 4096
def isWindowField (p : Nat) : Bool := decide (0xFC00 ≤ p) && decide (p < 0xFD00)

/-- A fill with polder 0x0000 answers a host-page fault request (R450). -/
def answersHost (s : State) (k : KCmd) : Bool :=
  k.u16 18 == 0 && (match s.driverRequest k with | some r => r.hostPage | none => false)

/-- Offsets of the bad fields of a fill that installs an entry (R426, R812, Table 4-10). -/
def badFill (s : State) (k : KCmd) : List Nat :=
  let p := k.u16 18
  let unit := sizePages (k.u8 42) * 4096
  let known := decide (k.u8 42 ≤ 2)
  let size := badIf (k.u16 40 < 1 || k.u16 40 > 512) 40 ++ badIf (k.u8 42 > 2) 42 ++ badIf (k.u8 44 > 63) 44
    ++ badIf (k.u64 24 ≥ 2 ^ 48 || k.u64 24 < 2 ^ 47 || (known && k.u64 24 % unit != 0)
        || k.u64 24 + fillBytes k > 2 ^ 48) 24
    ++ badIf (known && k.u64 32 % unit != 0) 32
  if isWindowField p then
    match s.cohort.outWin.get? (p - 0xFC00) with
    | none => 18 :: size
    | some w =>
      size ++ badIf (k.u8 44 != 0) 44 ++ badIf (k.u64 32 + fillBytes k > w.len) 32
        ++ badIf ((bitOf (k.u8 43) 0 && !w.r) || (bitOf (k.u8 43) 1 && !w.w) || (bitOf (k.u8 43) 2 && !w.a)) 43
  else
    size ++ badUnit p 18 (· == 0x0D)
      ++ match s.polder? (unitIndex p) with
        | some q => badIf (unitClass p == 0x0D && q.key != k.u8 44) 44
        | none => []

/-- What a fill that installs an entry names. -/
def fillNames (s : State) (k : KCmd) : List Nat :=
  if fillFails k || answersHost s k then []
  else if isWindowField (k.u16 18) then [outWindowRef (k.u16 18 - 0xFC00)] else [k.u16 18]

/-- A device page outside the polders assigned to the space's function. -/
def fillOutside (s : State) (k : KCmd) : Bool :=
  let p := k.u16 18
  match s.space? (astOf k) with
  | none => false
  | some x =>
    if isWindowField p then s.assignedFn (outWindowRef (p - 0xFC00)) != x.fn
    else
      match s.polder? (unitIndex p) with
      | some q => s.assignedFn p != x.fn || decide (k.u64 32 + fillBytes k > q.bytes)
      | none => false

/-- The entries a fill installs: runs whose DPAs are consecutive (R424, R429). -/
def fillEntries (s : State) (k : KCmd) : List XEntry :=
  let p := k.u16 18
  let unit := sizePages (k.u8 42)
  let one := fun (i : Nat) => (
    { ast := astOf k, page := k.u64 24 / 4096 + i * unit, size := k.u8 42, r := bitOf (k.u8 43) 0, w := bitOf (k.u8 43) 1,
      a := bitOf (k.u8 43) 2, key := k.u8 44,
      target := if isWindowField p then .window (p - 0xFC00) (k.u64 32 + i * unit * 4096)
        else .polder (unitIndex p) (k.u64 32 + i * unit * 4096),
      dpa := match s.polder? (unitIndex p) with
        | some q => if isWindowField p then windowBase + (p - 0xFC00) * 2 ^ 32 + k.u64 32 + i * unit * 4096
          else (q.dpa (k.u64 32 + i * unit * 4096)).getD 0
        | none => windowBase + (p - 0xFC00) * 2 ^ 32 + k.u64 32 + i * unit * 4096 } : XEntry)
  let add := fun (acc : List XEntry) (e : XEntry) =>
    match acc with
    | l :: t => if l.joins e then { l with run := l.run + 1 } :: t else e :: l :: t
    | [] => [e]
  (((List.range (k.u16 40)).map one).foldl add []).reverse

/-- Ends a driver request. -/
def State.endDriver (s : State) (r : DrvReq) : State :=
  { s with xlat := { s.xlat with drv := s.xlat.drv.filter fun x => x.id != r.id } }

/-- Ends a request as failed for the requesters that wait for it and need more than `r`, `w`, `a` gives (R442); all of
them when nothing is given. -/
def State.failWaiters (s : State) (q : DrvReq) (r w a : Bool) : State :=
  (s.waitersOf q.ast q.page).foldl (fun s id =>
    match s.xlat.jobs.get? id with
    | some j =>
      let lacks := j.need.any fun n => n.page == q.page && !(if n.right = 0 then r else if n.right = 1 then w else a)
      if lacks then s.failPage id q.page 3 else s
    | none => s) s

/-- The effect of a fill on its request (R165, R441, R442, R449-R452, R474). -/
def State.answerDriver (s : State) (k : KCmd) (q : DrvReq) : State :=
  let s := s.endDriver q
  if q.discard then
    match q.fault with
    | some id => s.restartJob id
    | none => s.advanceAll
  else if fillFails k then
    match q.fault with
    | some id => s.faultFailed id q.page
    | none => ((s.failWaiters q false false false).advanceAll)
  else if answersHost s k || q.hostPage then
    match q.fault with
    | some id => s.unpark id q.page
    | none => s
  else
    let es := fillEntries s k
    let s := es.foldl State.install s
    let covered := es.any fun e => e.covers q.ast q.page
    match q.fault with
    | some id => s.unpark id q.page
    | none =>
      let s := if covered then s.failWaiters q (bitOf (k.u8 43) 0) (bitOf (k.u8 43) 1) (bitOf (k.u8 43) 2) else s
      s.advanceAll

def translateFillCmd : Cmd where
  opcode := 0x1203
  primary := .res
  lease := .shared
  sb := false
  inU := false
  layout := [(16, 2, 0xFFFF), (18, 2, 0xFFFF), (20, 4, 2 ^ 32 - 1), (24, 8, all8), (32, 8, all8), (40, 2, 0xFFFF),
    (42, 1, 0xFF), (43, 1, 0xFF), (44, 1, 0xFF)]
  ref _ k := astRef (astOf k)
  bad s k := badIf (astOf k > 4095) 16 ++ badIf (!fillFails k && k.u8 43 / 8 != 0) 43
    ++ (if fillFails k || answersHost s k then [] else badFill s k)
  names s k := fillNames s k
  denied s k := !fillFails k && !answersHost s k && fillOutside s k
  check6 s k := (absent s (astRef (astOf k))).or
    (if !fillFails k && !answersHost s k && !isWindowField (k.u16 18) then absent s (k.u16 18) else none)
    |>.or (if (s.driverRequest k).isSome then none else failState 2 0)
  effect s k :=
    match s.driverRequest k with
    | some q => { state := s.answerDriver k q }
    | none => { state := s }

def execTranslateFill (k : KCmd) (s : State) : Host.Outcome State Fault Refusal := .next (s.kymal translateFillCmd k)

def invalRangeCmd : Cmd where
  opcode := 0x1204
  primary := .res
  lease := .shared
  accepted := true
  sb := false
  layout := [(16, 2, 0xFFFF), (24, 8, all8), (32, 8, all8)]
  ref _ k := astRef (astOf k)
  bad _ k := badIf (astOf k > 4095) 16 ++ badIf (k.u64 24 ≥ 2 ^ 48) 24
    ++ badIf (k.u64 32 % 4096 != 0) 32
  check6 s k := absent s (astRef (astOf k))
  effect s k :=
    let lo := k.u64 24 / 4096
    let hi := (k.u64 24 + k.u64 32 + 4095) / 4096
    let sc := InvalScope.range (astOf k) lo hi
    { state := s.beginInval sc (.command 0x1204 (astRef (astOf k))) }
  finish s r _ :=
    match r.outcome with
    | some f => some (s, f)
    | none => if s.invalidating r.ref then none else some (s, { status := stOk, result := toLE 8 0 })

def execInvalRange (k : KCmd) (s : State) : Host.Outcome State Fault Refusal := .next (s.kymal invalRangeCmd k)

def invalTagCmd : Cmd where
  opcode := 0x1205
  primary := .res
  lease := .shared
  accepted := true
  sb := false
  layout := [(16, 2, 0xFFFF)]
  ref _ k := astRef (astOf k)
  bad _ k := badIf (astOf k > 4095) 16
  check6 s k := absent s (astRef (astOf k))
  effect s k := { state := s.beginInval (.tag (astOf k)) (.command 0x1205 (astRef (astOf k))) }
  finish s r _ :=
    match r.outcome with
    | some f => some (s, f)
    | none => if s.invalidating r.ref then none else some (s, { status := stOk, result := toLE 8 0 })

def execInvalTag (k : KCmd) (s : State) : Host.Outcome State Fault Refusal := .next (s.kymal invalTagCmd k)

/-- Key of an aperture slot. -/
def apertureKey (cluster slot : Nat) : Nat := 16 * cluster + slot

def apertureMapCmd : Cmd where
  opcode := 0x1206
  primary := .res
  lease := .excl
  sb := false
  layout := [(16, 2, 0xFFFF), (18, 1, 0xFF), (20, 2, 0xFFFF), (22, 1, 7), (24, 8, all8), (32, 8, all8)]
  ref _ k := k.u16 16
  bad s k := badUnit (k.u16 16) 16 (· == 0x06) ++ badIf (k.u8 18 > 15) 18 ++ badUnit (k.u16 20) 20 (· == 0x0D)
    ++ badIf (k.u64 24 % 4096 != 0) 24 ++ badIf (k.u64 32 % 4096 != 0) 32
    ++ match s.polder? (unitIndex (k.u16 20)) with
      | some p => badIf (k.u64 24 > p.bytes) 24 ++ badIf (k.u64 24 + k.u64 32 > p.bytes) 32
      | none => []
  names _ k := [k.u16 20]
  check6 s k := absent s (k.u16 20)
  check10 s k :=
    if s.xlat.apertures.has (apertureKey (unitIndex (k.u16 16)) (k.u8 18)) then
      some { status := stConflict, detail := noHolder } else none
  effect s k :=
    let m : ApertureSlot := ⟨unitIndex (k.u16 20), k.u64 24, k.u64 32, bitOf (k.u8 22) 0, bitOf (k.u8 22) 1, bitOf (k.u8 22) 2⟩
    let key := apertureKey (unitIndex (k.u16 16)) (k.u8 18)
    { state := { s with xlat := { s.xlat with apertures := s.xlat.apertures.set key m } } }

def execApertureMap (k : KCmd) (s : State) : Host.Outcome State Fault Refusal := .next (s.kymal apertureMapCmd k)

/-- The cluster is bound to a caddy whose program runs. -/
def State.clusterRuns (s : State) (cluster : Nat) : Bool :=
  match (s.d2d.clusters.get {} cluster).caddy with
  | some c => match s.inf.caddies.get? c with
    | some x => x.state == 4
    | none => false
  | none => false

def apertureUnmapCmd : Cmd where
  opcode := 0x1207
  primary := .res
  lease := .excl
  sb := false
  layout := [(16, 2, 0xFFFF), (18, 1, 0xFF)]
  ref _ k := k.u16 16
  bad _ k := badUnit (k.u16 16) 16 (· == 0x06) ++ badIf (k.u8 18 > 15) 18
  check6 s k := if s.clusterRuns (unitIndex (k.u16 16)) then failState 3 4 else none
  effect s k :=
    let key := apertureKey (unitIndex (k.u16 16)) (k.u8 18)
    { state := { s with xlat := { s.xlat with apertures := s.xlat.apertures.erase key } } }

def execApertureUnmap (k : KCmd) (s : State) : Host.Outcome State Fault Refusal := .next (s.kymal apertureUnmapCmd k)

def accessCountSetCmd : Cmd where
  opcode := 0x1208
  minor := 2
  primary := .res
  lease := .excl
  sb := false
  layout := [(16, 2, 0xFFFF), (18, 1, 1), (24, 4, 2 ^ 32 - 1)]
  ref _ k := astRef (astOf k)
  bad _ k := badIf (astOf k > 4095) 16
  check6 s k := absent s (astRef (astOf k))
  effect s k :=
    let on := bitOf (k.u8 18) 0
    let x := s.xlat
    { state := { s with xlat := { x with
        spaces := x.spaces.modify (astOf k) fun v => { v with counting := on, threshold := k.u32 24 }
        hot := if on then x.hot else x.hot.filter fun h => h.ast != astOf k } } }

def execAccessCountSet (k : KCmd) (s : State) : Host.Outcome State Fault Refusal := .next (s.kymal accessCountSetCmd k)

/-! ### Answers of the host -/

/-- Entries of a grant: one entry where it is a page of a size of its own, else a run of 4 KiB pages (R431). -/
def grantEntries (ast : Nat) (g : AtsGrant) : List XEntry :=
  let big := fun n => g.count == n && g.page % n == 0
  let e := fun size run => ({ ast := ast, page := g.page, size := size, run := run, r := g.r, w := g.w,
                              target := .host (alignDown g.hpa 4096) } : XEntry)
  if big 262144 then [e 2 1] else if big 512 then [e 1 1] else splitGroups 1024 (e 0 g.count)

/-- Ends the pages of a request for the records that wait for them. -/
def State.failPages (s : State) (ast : Nat) (pages : List Nat) (cause : Nat) (p : XJob → Need → Bool) : State :=
  pages.foldl (fun s page =>
    (s.waitersOf ast page).foldl (fun s id =>
      match s.xlat.jobs.get? id with
      | some j => if j.need.any fun n => n.page == page && p j n then s.failPage id page cause else s
      | none => s) s) s

/-- An ATS request ended in an error or a timeout (R446). -/
def State.failAts (s : State) (ast page : Nat) : State :=
  match s.xlat.ats.find? fun r => r.ast == ast && r.page == page with
  | none => s
  | some r =>
    let s := { s with xlat := { s.xlat with ats := s.xlat.ats.filter (· != r) } }
    if r.discard then s.advanceAll
    else (s.failPages ast ((List.range r.count).map (page + ·)) 4 fun _ _ => true).advanceAll

/-- R430, R431, R444, R445, R452, R474. -/
def State.completeAts (s : State) (ast page : Nat) (grants : List AtsGrant) : State :=
  match s.xlat.ats.find? fun r => r.ast == ast && r.page == page with
  | none => s
  | some r =>
    let s := { s with xlat := { s.xlat with ats := s.xlat.ats.filter (· != r) } }
    if r.discard then s.advanceAll
    else
      let asked := (List.range r.count).map (page + ·)
      let grantOf := fun p => grants.find? fun g => decide (g.page ≤ p) && decide (p < g.page + g.count)
      let lacks := fun (_ : XJob) (n : Need) => match grantOf n.page with
        | some g => !(if n.right = 0 then g.r else n.right == 1 && g.w)
        | none => true
      let s := s.failPages ast asked 1 lacks
      let full := fun (g : AtsGrant) => (g.r || g.w) && !(s.xlat.jobs.any fun _ j => j.ast == ast && j.fails.any fun f =>
        decide (g.page ≤ f.1) && decide (f.1 < g.page + g.count) && asked.contains f.1)
      ((grants.filter full).flatMap (grantEntries ast)).foldl State.install s |>.advanceAll

/-- R444-R446. -/
def execAtsCompletion (ast page : Nat) (r : AtsReply) (s : State) : Host.Outcome State Fault Refusal :=
  let row := Instr.atsCompletion ast page r
  .next (s.into islHost row fun s => s.into islXlat row fun s => if r.error then s.failAts ast page else s.completeAts ast page r.grants)

/-- R450, R452-R455. -/
def execPrgResponse (f group : Nat) (code : PrgCode) (s : State) : Host.Outcome State Fault Refusal :=
  .next (s.into islHost (.prgResponse f group code) fun s => s.into islXlat (.prgResponse f group code) fun s =>
    match s.xlat.pages.find? fun p => p.fn == f && p.group == group with
    | none => s
    | some p =>
      let s := { s with xlat := { s.xlat with pages := s.xlat.pages.filter (· != p) } }
      match code with
      | .success => (s.unpark p.job p.page).sendWaiting f
      | .invalidRequest => (s.faultFailed p.job p.page).sendWaiting f
      | .responseFailure => (s.faultFailed p.job p.page).setHostFn f { s.hostFn f with priStopped := true })

/-- R475, R857: a 33rd request waits at the link. -/
def execAtsInvalidateRequest (f tag pasid page count : Nat) (s : State) : Host.Outcome State Fault Refusal :=
  let held := (s.xlat.invals.filter fun v => match v.cause with | .ats _ _ => true | _ => false).length
  let row := Instr.atsInvalidateRequest f tag pasid page count
  .next (s.into islHost row fun s => s.into islXlat row fun s =>
    if held ≥ 32 then s else s.beginInval (.host f pasid page (page + count)) (.ats f tag))

/-- Bits that wait for the handshake to be treated as clear (R858). -/
def State.disableAts (s : State) (before : List Inval) : State :=
  before.foldl (fun s v => match v.cause with
    | .atsDisabled f => if s.xlat.invals.any fun w => w.cause == v.cause then s
        else s.setHostFn f { s.hostFn f with atsEnable := false }
    | _ => s) s

/-- R470-R472, R166, R475. -/
def execEngineInvalAck (i : Nat) (s : State) : Host.Outcome State Fault Refusal :=
  .next (s.into islXlat (.engineInvalAck i) fun s => (s.ackInval i).disableAts s.xlat.invals)

/-- R465, R466. -/
def execAccessCountWindow (s : State) : Host.Outcome State Fault Refusal :=
  .next (s.into islXlat .accessCountWindow fun s =>
    { s with xlat := { s.xlat with hot := s.xlat.hot.map fun h => { h with count := 0, reported := false } } })

/-- R858. -/
def execAtsEnableClear (f : Nat) (s : State) : Host.Outcome State Fault Refusal :=
  let s' := s.beginInval (.function f) (.atsDisabled f)
  .next (if !s.barUp f then s
    else if s'.xlat.invals.any fun v => v.cause == .atsDisabled f then s'
    else s'.setHostFn f { s'.hostFn f with atsEnable := false })

/-- R448, R453, R859: Stop Markers go out, and the parked records ask the driver. -/
def execPriEnableClear (f : Nat) (s₀ : State) : Host.Outcome State Fault Refusal :=
  let s := s₀
  let mine := s.xlat.pages.filter fun p => p.fn == f
  let pasids := (mine.filterMap fun p =>
    match s.xlat.jobs.get? p.job with
    | some j => match s.space? j.ast with
      | some x => some x.pasid
      | none => none
    | none => none).eraseDups
  let s := pasids.foldl (fun s p => s.emit (.stopMarker f p)) s
  let s := { s with xlat := { s.xlat with pages := s.xlat.pages.filter fun p => p.fn != f } }
  let s := s.setHostFn f { s.hostFn f with priEnable := false, priStopped := false }
  .next (if !s₀.barUp f then s₀
    else s.xlat.jobs.cells.foldl (fun s c =>
      match c.2.parked with
      | some (page, kind) =>
        if c.2.fn = f && (match kind with | .request _ => false | _ => true) then
          s.park c.1 { c.2 with parked := none } page 1 else s
      | none => s) s)

end Sys2Proof.Machine
end

