-- ==== Sys2Proof/Machine/Pumps.lean ====
section
/-! DEFINITION. Pump engines: descriptors, read-ahead, dispatch, the frame-delta stage, halts and completions
(chapter 11). Channels are numbered 16 × engine + channel. -/

namespace Sys2Proof.Machine

/-! ### Descriptors (Tables 11-1, 11-2) -/

structure Desc where
  type : Nat
  cmpl : Bool
  irq : Bool
  fence : Bool
  delta : Bool
  alloc : Bool
  srcKind : Nat
  dstKind : Nat
  elem : Nat
  row : Nat
  src : Nat
  dst : Nat
  rows : Nat
  planes : Nat
  srcPitch : Nat
  dstPitch : Nat
  srcPlane : Nat
  dstPlane : Nat
  threshold : Nat
deriving DecidableEq, Repr

def parseDesc (b : Bytes) : Desc :=
  let type := byteAt b 0 % 16
  let f := byteAt b 1
  { type := type, cmpl := bitOf f 0, irq := bitOf f 1, fence := bitOf f 2, delta := bitOf f 3, alloc := bitOf f 4,
    srcKind := byteAt b 2 % 4, dstKind := byteAt b 2 / 4 % 4, elem := byteAt b 3 % 4, row := fieldAt b 4 4,
    src := fieldAt b 8 8, dst := fieldAt b 16 8, rows := if type = 1 then 1 else fieldAt b 24 2,
    planes := if type = 3 then fieldAt b 26 2 else 1, srcPitch := fieldAt b 28 4, dstPitch := fieldAt b 32 4,
    srcPlane := fieldAt b 40 8, dstPlane := fieldAt b 48 8, threshold := fieldAt b 48 4 }

namespace Desc

/-- Bytes of the tile. -/
def total (d : Desc) : Nat := if d.type = 0 then 0 else d.row * d.rows * d.planes

def hasSrc (d : Desc) : Bool := decide (1 ≤ d.type) && decide (d.type ≤ 4)
def hasDst (d : Desc) : Bool := d.type == 1 || d.type == 2 || d.type == 3 || d.type == 5
def hasRef (d : Desc) : Bool := d.type == 4 && d.delta
def isTx (d : Desc) : Bool := d.type == 4
def isRx (d : Desc) : Bool := d.type == 5

/-- Bytes 4-55 a type uses, as ranges (Table 11-2). -/
def fields (d : Desc) : List (Nat × Nat) :=
  match d.type with
  | 1 => [(4, 24)]
  | 2 => [(4, 26), (28, 36)]
  | 3 => [(4, 36), (40, 56)]
  | 4 => [(4, if d.delta then 24 else 16), (24, 26), (28, 32), (48, 52)]
  | 5 => [(4, 8), (16, 26), (32, 36)]
  | _ => []

/-- R495. `host`: the channel takes only kind 0, else only kinds 1 and 2 (R484). -/
def malformed (d : Desc) (b : Bytes) (host : Bool) : Bool :=
  let kindOk := fun k => if host then k == 0 else k == 1 || k == 2
  let reserved := byteAt b 0 / 16 != 0 || byteAt b 1 / 32 != 0 || byteAt b 2 / 16 != 0 || byteAt b 3 / 4 != 0
    || (!d.delta && d.elem != 0)
    || (List.range 52).any fun i => byteAt b (4 + i) != 0 && !d.fields.any fun r => decide (r.1 ≤ 4 + i) && decide (4 + i < r.2)
  decide (d.type > 5) || reserved
    || (d.hasSrc && !kindOk d.srcKind) || ((d.hasDst || d.hasRef) && !kindOk d.dstKind)
    || (d.type != 0 && (d.total == 0 || decide (d.total > 0xFFFFFFFF)))
    || ((d.type == 2 || d.type == 3 || (d.type == 5 && decide (d.rows > 1))) && decide (d.dstPitch < d.row))
    || (d.type == 3 && decide (d.dstPlane < d.rows * d.dstPitch))
    || (d.delta && (d.type != 4 || d.row % 64 != 0))

/-- The rows of one side, in tile order (R496). -/
def rowsOn (d : Desc) (base pitch plane : Nat) : List Seg :=
  (List.range d.planes).flatMap fun q => (List.range d.rows).map fun r =>
    ⟨(q * d.rows + r) * d.row, (base + q * plane + r * pitch) % 2 ^ 64, d.row⟩

/-- Page-cut runs of the source, the destination and the reference. -/
def srcSegs (d : Desc) : List Seg := if d.hasSrc then (d.rowsOn d.src d.srcPitch d.srcPlane).flatMap Seg.pages else []
def dstSegs (d : Desc) : List Seg := if d.hasDst then (d.rowsOn d.dst d.dstPitch d.dstPlane).flatMap Seg.pages else []
def refSegs (d : Desc) : List Seg := if d.hasRef then Seg.pages ⟨0, d.dst, d.total⟩ else []

end Desc

/-- First tile byte of reference runs, apart from those of the source. -/
def refTile : Nat := 2 ^ 40

/-- Inserts a need in the order of its first byte. -/
def addNeed (n : Need) : List Need → List Need
  | [] => [n]
  | m :: t => if n.first < m.first then n :: m :: t else m :: addNeed n t

/-- One need for each page, side and right. -/
def needsOf (side right : Nat) (segs : List Seg) : List Need :=
  segs.foldl (fun l g => if l.any fun n => n.page == g.addr / 4096 then l else l ++ [⟨side, g.addr / 4096, right, g.tile⟩]) []

/-- Pages a kind 0 descriptor touches, in tile order (R433, R461, R507). -/
def Desc.needs (d : Desc) : List Need :=
  (needsOf 0 0 d.srcSegs ++ needsOf 1 1 d.dstSegs ++ needsOf 2 0 d.refSegs ++ needsOf 2 1 d.refSegs).foldl
    (fun l n => addNeed n l) []

/-- The address of a tile byte on one side: 0 source, 1 destination, 2 reference. -/
def Desc.addrAt (d : Desc) (side tile : Nat) : Nat :=
  let segs := if side = 0 then d.srcSegs else if side = 1 then d.dstSegs else d.refSegs
  match segs.find? fun g => decide (g.tile ≤ tile) && decide (tile < g.tile + g.len) with
  | some g => g.addr + (tile - g.tile)
  | none => 0

/-- The kind that tile bytes read are addressed by. -/
def Desc.readKind (i : Desc) (tile : Nat) : Nat := if tile ≥ refTile then i.dstKind else i.srcKind

/-- Runs that a descriptor reads: its source, and its reference at tile bytes of its own. -/
def Desc.readSegs (i : Desc) : List Seg := i.srcSegs ++ i.refSegs.map fun g => { g with tile := refTile + g.tile }

/-- Status of a completion word that a skip writes (R519). -/
def stSkipped : Nat := 0xFF

/-- The completion word (Table 11-7). -/
def completionWord (status bytes quiet : Nat) : Nat :=
  packBits [(1, 1), (7, 0), (8, status), (32, bytes), (16, min quiet 65535)]

namespace State

def pchan (s : State) (k : Nat) : PumpChan := s.pumps.chans.get {} k

def setPchan (s : State) (k : Nat) (x : PumpChan) : State := { s with pumps := { s.pumps with chans := s.pumps.chans.set k x } }

def setDesc (s : State) (k index : Nat) (f : PDesc → PDesc) : State :=
  let x := s.pchan k
  s.setPchan k { x with descs := x.descs.map fun (d : PDesc) => if d.index = index then f d else d }

def descAt (s : State) (k index : Nat) : Option PDesc := (s.pchan k).descs.find? fun d => d.index == index

/-- The function a channel belongs to (R167, R483). -/
def chanFn (s : State) (k : Nat) : Nat :=
  match (s.pchan k).kind with
  | .program c => s.caddyFn c
  | _ => (s.pchan k).fn

def chanCaddy (s : State) (k : Nat) : Nat :=
  match (s.pchan k).kind with
  | .program c => c
  | _ => 0

def isHostChan (s : State) (k : Nat) : Bool := decide ((s.pchan k).kind = .host)

/-- A descriptor of the channel is parked on a fault. -/
def chanParked (s : State) (k : Nat) : Bool :=
  (s.pchan k).descs.any fun d => match d.job with
    | some id => match s.xlat.jobs.get? id with
      | some j => j.parked.isSome
      | none => false
    | none => false

/-- Table 4-4, scope 4. -/
def chanCode (s : State) (k : Nat) : Nat :=
  let x := s.pchan k
  if decide (x.kind = .closed) then 0 else if x.halt.isSome then 2 else if s.chanParked k then 3 else 1

def dropJobs (s : State) (ids : List (Option Nat)) : State :=
  ids.foldl (fun s o => match o with | some id => s.dropJob id | none => s) s

/-- Drops the records of a channel that closes: the driver requests that only they waited for end with them (R455). -/
def abandonJobs (s : State) (ids : List (Option Nat)) : State :=
  let waits := fun (s : State) (r : DrvReq) => (s.waitersOf r.ast r.page)
  let mine := s.xlat.drv.filter fun r => r.fault.isNone && (waits s r).any fun id => ids.contains (some id)
  let s := s.dropJobs ids
  { s with xlat := { s.xlat with drv := s.xlat.drv.filter fun r => !(mine.contains r && (waits s r).isEmpty) } }

/-- Marks a translation record as used by a dispatched transfer, or no longer (R471). -/
def setBusy (s : State) (job : Option Nat) (b : Bool) : State :=
  match job with
  | none => s
  | some id => match s.xlat.jobs.get? id with
    | some j => s.setJob id { j with busy := b }
    | none => s

/-- A translation of the channel's requester. -/
def chanJob (s : State) (k : Nat) (mayFault : Bool) (need : List Need) : State × Nat :=
  let x := s.pchan k
  s.startJob { requester := 0, engine := k / 16, unit := pumpUnit (k / 16), channel := k % 16, fn := x.fn, ast := x.ast,
               mayFault := mayFault, need := need }

def jobStatus (s : State) (id : Nat) : XStatus :=
  match s.xlat.jobs.get? id with
  | some j => if j.remark then .waiting else j.status
  | none => .waiting

/-! ### Completion words (R516, R521-R523) -/

/-- Owes a completion word: its ring page needs W (R487). -/
def oweWord (s : State) (k index word : Nat) (irq : Bool) : State :=
  let x := s.pchan k
  let (s, id) := s.chanJob k false [⟨0, (x.base + 64 * index) / 4096, 1, 0⟩]
  let x := s.pchan k
  s.setPchan k { x with words := x.words ++ [(index, word, irq, id)] }

def haltEvent (s : State) (k : Nat) (h : HaltRec) : State :=
  s.raise (if h.cause = 0x10 then 0x0802 else 0x0801) (if h.cause = 0x10 then sevFailed else sevDegraded) (pumpUnit (k / 16))
    [(4, k % 16), (8, h.cause), (16, h.index), (48, h.addr), (2, h.kind), (2, 0), (7, s.chanFn k), (9, 0)] (.fn (s.chanFn k))

/-- A descriptor halts its channel (R511, R514-R516, R683). One that fails while the channel is halted keeps its cause
until it reaches dispatch again. -/
def haltDesc (s : State) (k index cause addr kind : Nat) : State :=
  let x := s.pchan k
  let s := s.setDesc k index fun d =>
    { d with fail := some (cause, addr, kind), dispatched := false, reads := [], writes := [], pieces := [], data := {} }
  match x.halt, s.descAt k index with
  | none, some d =>
    let s := s.setBusy d.job false
    let h : HaltRec := ⟨cause, index, addr, kind⟩
    let s := (s.setPchan k { s.pchan k with halt := some h }).haltEvent k h
    match x.kind, d.tag with
    | .host, _ => s.oweWord k index (completionWord cause d.moved d.quiet) true
    | _, some tag =>
      let t : Option Trap := if cause = 0x16 then some { cause := 3, addr := addr, unit := pumpUnit (k / 16) } else none
      (s.reportOp tag { record := toLE 8 (completionWord cause d.moved d.quiet), trap := t }).setDesc k index
        fun d => { d with tag := none }
    | _, none => s
  | _, _ => s

/-- A halt whose failing address the spec does not define: malformed descriptors and absent bindings (DESIGN CHOICE, log entry 16). -/
def haltOpen (s : State) (k index cause : Nat) : State :=
  (s.haltDesc k index cause (s.freeNat % 2 ^ 48) (if s.isHostChan k then 0 else s.freeNat % 3)).tickFree

/-- Writes a completion word whose ring page is translated, and raises the vector (R521-R523); a failed ring access
halts the channel with cause 0x13 (R488). -/
def flushWord (s : State) (k : Nat) (w : Nat × Nat × Bool × Nat) : State :=
  let (index, word, irq, id) := w
  let drop := fun (s : State) =>
    let x := s.pchan k
    (s.setPchan k { x with words := x.words.filter (· != w) }).dropJob id
  let x := s.pchan k
  let a := x.base + 64 * index + 56
  let ring := fun (s : State) => if irq then s.raiseVector x.fn x.vector else s
  match s.jobStatus id with
  | .waiting => s
  | .failed _ _ _ =>
    let s := drop s
    if x.halt.isSome then ring s
    else
      let h : HaltRec := ⟨0x13, index, a, 0⟩
      ring ((s.setPchan k { s.pchan k with halt := some h }).haltEvent k h)
  | .ready =>
    let s' := match s.place 0 (some id) 0 a with
      | .host h dva => (s.emit (.hostWrite h (toLE 8 word))).countAccess x.ast dva
      | .window n o => (s.remoteAccess n o opWrite 8 0 (toLE 8 word) (.pump k 65536 0 a)).getD s
      | p => s.writePlace p (toLE 8 word)
    ring (drop s')

def flushWords (s : State) (k : Nat) : State := (s.pchan k).words.foldl (fun s w => s.flushWord k w) s

/-! ### Reading and writing tiles -/

/-- A run of bytes from a place on waits for a slice's clock, its channel, sluice or page lock (R44, R297, R315, R403); a
Basin hit waits for no memory. -/
def placeWaits (s : State) (p : Place) (len : Nat) : Bool :=
  match p with
  | .polder i o =>
    match s.polder? i with
    | some q => (State.linesTouched q o len).any s.lineWaits
    | none => false
  | .scratch a =>
    match scratchOf a with
    | some (n, _) => s.islandHalted n
    | none => false
  | _ => false

/-- What an access to part of a tile gives. -/
structure Gathered where
  state : State
  data : Bytes := []
  pieces : List Piece := []
  /-- First failure: cause, tile byte, address. -/
  fail : Option (Nat × Nat × Nat) := none

/-- REQ accesses of a run through outbound window `n` (R816). -/
def reachWindow (k : Nat) (d : PDesc) (n o op : Nat) (data : Bytes) (acc : Gathered) (g : Seg) : Gathered :=
  (Seg.cut 256 ⟨g.tile, o, g.len⟩).foldl (fun (acc : Gathered) c =>
    let a := g.addr + (c.addr - o)
    match acc.state.remoteAccess n c.addr op c.len 0 ((data.drop (c.tile - g.tile)).take c.len) (.pump k d.index c.tile a) with
    | some s => { acc with state := s, pieces := acc.pieces ++ [⟨c.tile, c.len, op == opWrite⟩] }
    | none => { acc with fail := acc.fail.or (some (0x15, c.tile, a)) }) acc

/-- A run in host memory or in an outbound window is requested; one in memory is left for the engine's turns. -/
def requestSeg (k : Nat) (d : PDesc) (kind : Nat) (acc : Gathered) (g : Seg) : Gathered :=
  let s := acc.state
  let x := s.pchan k
  match s.place (s.chanCaddy k) d.job kind g.addr with
  | .host h dva =>
    let pasid := (s.space? x.ast).map (·.pasid)
    { acc with state := (s.emit (.hostRead x.fn pasid h g.len)).countAccess x.ast dva,
               pieces := acc.pieces ++ [⟨g.tile, g.len, false⟩] }
  | .window n o => reachWindow k d n o opRead [] acc g
  | .outside => { acc with fail := acc.fail.or (some (0x16, g.tile, g.addr)) }
  | _ => acc

/-- Reads one block of a tile in memory. -/
def readBlock (s : State) (k : Nat) (d : PDesc) (kind : Nat) (alloc : Bool) (g : Seg) : Gathered :=
  let (s, r) := s.readPlace (s.place (s.chanCaddy k) d.job kind g.addr) g.len alloc
  if r.bad.isSome then { state := s, fail := some (0x10, g.tile, g.addr) } else { state := s, data := r.bytes }

/-- The part of a run inside tile bytes [lo, hi). -/
def clipSeg (lo hi : Nat) (g : Seg) : Option Seg :=
  let a := max lo g.tile
  let b := min hi (g.tile + g.len)
  if a < b then some ⟨a, g.addr + (a - g.tile), b - a⟩ else none

/-- Writes bytes at one page-cut run: memory, a posted host write, or REQ writes. -/
def writeSeg (k : Nat) (d : PDesc) (kind : Nat) (acc : Gathered) (g : Seg) (bs : Bytes) : Gathered :=
  let s := acc.state
  match s.place (s.chanCaddy k) d.job kind g.addr with
  | .host h dva => { acc with state := (s.emit (.hostWrite h bs)).countAccess (s.pchan k).ast dva }
  | .window n o => reachWindow k d n o opWrite bs acc g
  | .outside => { acc with fail := acc.fail.or (some (0x16, g.tile, g.addr)) }
  | p => { acc with state := s.writePlace p bs }

/-- Writes tile bytes from offset `off` to the destination of a descriptor. -/
def writeTile (s : State) (k : Nat) (d : PDesc) (segs : List Seg) (kind off : Nat) (bs : Bytes) : Gathered :=
  (segs.filterMap (clipSeg off (off + bs.length))).foldl
    (fun acc g => writeSeg k d kind acc g ((bs.drop (g.tile - off)).take g.len)) { state := s }

/-- Tile bytes gathered between two offsets, in order. -/
def tileBytes (data : List (Nat × Bytes)) (lo n : Nat) : Bytes :=
  (data.filter fun c => decide (lo ≤ c.1) && decide (c.1 < lo + n)).flatMap (·.2)

/-- After a failure each destination byte holds its old value or the value moved (R513): which of the gathered bytes
were written is free (DESIGN CHOICE, log entry 17). -/
def scatter (s : State) (k : Nat) (d : PDesc) (segs : List Seg) (kind : Nat) (data : List (Nat × Bytes)) : State :=
  let c := s.freeCtr
  let bytes := (data.filter fun p => decide (p.1 < refTile)).flatMap fun p => p.2.zipIdx.map fun b => (p.1 + b.2, b.1)
  let s := { s with freeCtr := c + bytes.length }
  (bytes.zipIdx.filter fun b => Config.freeNat (c + b.2) % 2 == 1).foldl
    (fun s b => (s.writeTile k d segs kind b.1.1 [b.1.2]).state) s

/-! ### Overlap (R497) -/

/-- Location of a byte, for overlap: a number unique over polders and the scratchpad. -/
def locOf (s : State) (k : Nat) (d : PDesc) (kind addr : Nat) : Option (Nat × Nat) :=
  match s.place (s.chanCaddy k) d.job kind addr with
  | .polder i o => some (i, o)
  | .scratch a => some (256, a)
  | _ => none

/-- Whether page-cut runs of the two sides meet in one polder or the scratchpad. -/
def segsMeet (s : State) (k : Nat) (d : PDesc) (i : Desc) : Bool :=
  i.srcSegs.any fun a => match s.locOf k d i.srcKind a.addr with
    | none => false
    | some la => i.dstSegs.any fun b => match s.locOf k d i.dstKind b.addr with
      | none => false
      | some lb => la.1 == lb.1 && decide (la.2 < lb.2 + b.len) && decide (lb.2 < la.2 + a.len)

/-- A value that a source byte held at some time during the descriptor: its own, or one the descriptor itself wrote
there; which is free (DESIGN CHOICE, log entry 17). -/
def heldValue (s : State) (src dst : List (Option (Nat × Nat))) (own : Bytes) : Nat → Nat → Byte
  | 0, i => (own[i]?).getD 0
  | fuel + 1, i =>
    match (src[i]?).getD none with
    | none => (own[i]?).getD 0
    | some l =>
      let j := dst.idxOf (some l)
      if j < dst.length && j != i && Config.freeNat (s.freeCtr + i) % 2 == 1 then heldValue s src dst own fuel j
      else (own[i]?).getD 0

/-- The bytes a transfer moves. -/
def movedBytes (s : State) (k : Nat) (d : PDesc) (i : Desc) (own : Bytes) : State × Bytes :=
  if s.segsMeet k d i then
    let locs := fun kind (segs : List Seg) => segs.flatMap fun g => (List.range g.len).map fun n => s.locOf k d kind (g.addr + n)
    let src := locs i.srcKind i.srcSegs
    let dst := locs i.dstKind i.dstSegs
    ({ s with freeCtr := s.freeCtr + own.length }, (List.range own.length).map (s.heldValue src dst own own.length))
  else (s, own)

/-! ### The frame-delta stage (R507-R510, Table 11-3) -/

def elemSize (elem : Nat) : Nat := match elem with | 0 => 1 | 3 => 4 | _ => 2

/-- One element satisfies |source − reference| ≤ threshold. A threshold that is not a non-negative finite number gives
the comparison no stated result: `open_` stands for it. -/
def elemQuiet (elem threshold a b : Nat) (open_ : Bool) : Bool :=
  if elem = 0 then decide ((signedOf 8 a - signedOf 8 b).natAbs ≤ threshold % 256)
  else
    let f := if elem = 1 then fp16 else if elem = 2 then bf16 else fp32
    let diff := decodeFp fp32 (encodeFp fp32 (addVal (decodeFp f a) (negVal (decodeFp f b))))
    match decodeFp f a, decodeFp f b, decodeFp fp32 threshold with
    | .nan, _, _ | _, .nan, _ => false
    | _, _, .fin false m e => absLe diff (.fin false m e)
    | _, _, _ => open_

def blockQuiet (elem threshold : Nat) (a b : Bytes) (open_ : Bool) : Bool :=
  let n := elemSize elem
  (List.range (64 / n)).all fun i => elemQuiet elem threshold (fieldAt a (n * i) n) (fieldAt b (n * i) n) open_

/-- One 64-byte slot of a delta tile (R507, R509): the half sent, and whether it was quiet. A block that is not quiet goes
into the reference too. -/
def deltaHalf (s : State) (k : Nat) (d : PDesc) (i : Desc) (tile : Nat) (a r : Bytes) : State × (Nat × Bytes) × Nat :=
  if blockQuiet i.elem i.threshold a r (s.freeNat % 2 == 1) then (s.tickFree, (markQuiet, []), 1)
  else ((s.writeTile k d i.refSegs i.dstKind tile a).state.tickFree, (markData, a), 0)

/-- One 64-byte slot without delta; what fills up the last one is free. -/
def plainHalf (s : State) (a : Bytes) : State × (Nat × Bytes) × Nat :=
  let pad := (List.range (64 - a.length)).map fun n => Config.freeByte (s.freeCtr + n)
  ({ s with freeCtr := s.freeCtr + pad.length }, (markData, a ++ pad), 0)

/-- The halves of one group: the state, the halves, and how many were quiet. -/
def groupHalves (s : State) (k : Nat) (d : PDesc) (i : Desc) (b : Outgoing) : State × List (Nat × Bytes) × Nat :=
  (List.range ((b.data.length + 63) / 64)).foldl (fun (acc : State × List (Nat × Bytes) × Nat) n =>
    let (s, hs, quiet) := acc
    let a := (b.data.drop (64 * n)).take 64
    let (s, h, q) := if i.delta then s.deltaHalf k d i (b.seg.tile + 64 * n) a ((b.ref.drop (64 * n)).take 64) else s.plainHalf a
    (s, hs ++ [h], quiet + q)) (s, [], 0)

/-! ### Moving (R479, R496-R506) -/

/-- Turns of 64 bytes that a run takes. -/
def turnsFor (len : Nat) : Nat := (len + 63) / 64

/-- The groups of a stream tile: two slots each (R507, R510). -/
def streamBlocks (i : Desc) (src ref : Bytes) : List Outgoing :=
  (List.range ((i.total + 127) / 128)).map fun n =>
    let len := min 128 (i.total - 128 * n)
    { seg := ⟨128 * n, i.dst + 128 * n, len⟩, data := (src.drop (128 * n)).take len, ref := (ref.drop (128 * n)).take len,
      turns := turnsFor len }

/-- The writes of a tile: blocks in memory, page runs in host memory, REQ accesses through a window. -/
def tileBlocks (s : State) (k : Nat) (d : PDesc) (i : Desc) (bs : Bytes) : List Outgoing :=
  (i.dstSegs.flatMap fun g => match s.place (s.chanCaddy k) d.job i.dstKind g.addr with
    | .host _ _ | .outside => [g]
    | .window _ _ => g.cut 256
    | _ => g.cut 64).map fun g => { seg := g, data := (bs.drop g.tile).take g.len, turns := turnsFor g.len }

/-- Once all of a tile is gathered, its way out begins. -/
def gathered (s : State) (k index : Nat) : State :=
  match s.descAt k index with
  | none => s
  | some d =>
    let i := parseDesc d.raw
    if !d.reads.isEmpty || !d.pieces.isEmpty || !d.writes.isEmpty || d.moved != 0 || i.total = 0 || i.isRx then s
    else
      let src := tileBytes d.data.cells 0 refTile
      let (s, writes) := if i.isTx then (s, streamBlocks i src (tileBytes d.data.cells refTile refTile))
        else
          let (s, bs) := s.movedBytes k d i src
          (s, s.tileBlocks k d i bs)
      s.setDesc k index fun d => { d with data := {}, writes := writes }

/-- The kind and address of a tile byte that fails to be read. -/
def failPlace (i : Desc) (tile : Nat) : Nat × Nat :=
  if tile ≥ refTile then (i.addrAt 2 (tile - refTile), i.dstKind) else (i.addrAt 0 tile, i.srcKind)

/-- A read that fails: each destination byte holds its old value or one that was gathered (R513), and the channel halts. -/
def readFails (s : State) (k : Nat) (d : PDesc) (cause addr kind : Nat) : State :=
  let i := parseDesc d.raw
  (if i.isTx then s else s.scatter k d i.dstSegs i.dstKind d.data.cells).haltDesc k d.index cause addr kind

/-- First run of a program channel's descriptor outside its caddy (R485, R331). -/
def outsideSeg (s : State) (k : Nat) (d : PDesc) (i : Desc) : Option (Nat × Nat) :=
  let bad := fun kind (g : Seg) =>
    s.place (s.chanCaddy k) d.job kind g.addr == .outside || s.place (s.chanCaddy k) d.job kind (g.addr + g.len - 1) == .outside
  let first := fun kind segs => ((segs : List Seg).find? (bad kind)).map fun g => (g.tile, g.addr, kind)
  let all := (first i.srcKind i.srcSegs).toList ++ (first i.dstKind i.dstSegs).toList ++ (first i.dstKind i.refSegs).toList
  (all.foldl (fun (m : Option (Nat × Nat × Nat)) c => match m with
    | none => some c
    | some b => if c.1 < b.1 then some c else m) none).map (·.2)

/-- A descriptor whose translation is done begins to move (R457, R496-R510): what comes from outside the device is
requested at once, and its blocks in memory take their engine's turns (R479). -/
def moveDesc (s : State) (k : Nat) (d : PDesc) : State :=
  let i := parseDesc d.raw
  let noBinding := (i.isTx || i.isRx) && match s.boundTo (.pump k) (natOf i.isRx) with
    | some (c, _) => (s.port c).dead
    | none => true
  match s.outsideSeg k d i with
  | some (addr, kind) => s.haltDesc k d.index 0x16 addr kind
  | none =>
    if noBinding then s.haltOpen k d.index 0x14
    else
      let s := (s.setBusy d.job true).setDesc k d.index fun d => { d with dispatched := true }
      if i.isRx then s
      else
        let g := i.readSegs.foldl (fun acc g => requestSeg k d (i.readKind g.tile) acc g) { state := s }
        match g.fail with
        | some (cause, tile, addr) => g.state.readFails k d cause addr (failPlace i tile).2
        | none =>
          let local_ := i.readSegs.filter fun g => match s.place (s.chanCaddy k) d.job (i.readKind g.tile) g.addr with
            | .host _ _ | .window _ _ => false
            | _ => true
          (g.state.setDesc k d.index fun d => { d with pieces := g.pieces, reads := local_.flatMap (Seg.cut 64) }).gathered k d.index

/-! ### The turns of an engine (R479) -/

/-- What a descriptor would do in its turn can be done now. -/
def turnReady (s : State) (k : Nat) (d : PDesc) : Bool :=
  let i := parseDesc d.raw
  let free := fun kind (g : Seg) => !s.placeWaits (s.place (s.chanCaddy k) d.job kind g.addr) g.len
  d.dispatched && !d.completed &&
    if i.isRx then decide (d.moved < i.total) && match s.boundTo (.pump k) 1 with
      | some (c, unit) => !((s.port c).inbox.get [] unit).isEmpty
          && (i.dstSegs.filterMap (clipSeg d.moved (d.moved + 64))).all (free i.dstKind)
      | none => false
    else match d.reads, d.writes with
      | g :: _, _ => free (i.readKind g.tile) g
      | [], b :: _ => decide (b.turns > 1) || (i.isTx && !i.delta) || free i.dstKind b.seg
      | [], [] => false

/-- A STREAM_RX descriptor takes up to 64 bytes that its stream unit has received (R504). -/
def takeRx (s : State) (k : Nat) (d : PDesc) : State :=
  match s.boundTo (.pump k) 1 with
  | none => s
  | some (c, unit) =>
    let i := parseDesc d.raw
    let (s, bs) := s.takeInbox c unit (min 64 (i.total - d.moved))
    let g := s.writeTile k d i.dstSegs i.dstKind d.moved bs
    match g.fail with
    | some (cause, _, addr) => g.state.haltDesc k d.index cause addr i.dstKind
    | none => g.state.setDesc k d.index fun d => { d with moved := d.moved + bs.length, pieces := d.pieces ++ g.pieces }

/-- A group of a stream tile goes out (R505, R509). -/
def sendBlock (s : State) (k : Nat) (d : PDesc) (b : Outgoing) (rest : List Outgoing) : State :=
  let i := parseDesc d.raw
  match s.boundTo (.pump k) 0 with
  | none => s.haltOpen k d.index 0x14
  | some (c, unit) =>
    if (s.port c).dead then s.haltOpen k d.index 0x14
    else
      let (s, hs, quiet) := s.groupHalves k d i b
      let gs := (packHalves unit (1 + s.freeNat % 3) hs).map fun (g : Group) => { g with last := rest.isEmpty }
      (s.tickFree.sendGroups c gs).setDesc k d.index fun d =>
        { d with writes := rest, quiet := d.quiet + quiet, moved := d.moved + b.seg.len }

/-- A block of a tile is written (R496, R502). -/
def writeBlock (s : State) (k : Nat) (d : PDesc) (b : Outgoing) (rest : List Outgoing) : State :=
  let i := parseDesc d.raw
  let g := writeSeg k d i.dstKind { state := s } b.seg b.data
  match g.fail with
  | some (cause, _, addr) => g.state.haltDesc k d.index cause addr i.dstKind
  | none => g.state.setDesc k d.index fun d =>
      { d with writes := rest, pieces := d.pieces ++ g.pieces, moved := d.moved + b.seg.len }

/-- One turn of a descriptor: 64 bytes come in or go out. -/
def takeTurn (s : State) (k : Nat) (d : PDesc) : State :=
  let i := parseDesc d.raw
  if i.isRx then s.takeRx k d
  else match d.reads, d.writes with
    | g :: rest, _ =>
      let r := s.readBlock k d (i.readKind g.tile) i.alloc g
      match r.fail with
      | some (cause, _, addr) => r.state.readFails k d cause addr (i.readKind g.tile)
      | none => (r.state.setDesc k d.index fun d => { d with reads := rest, data := d.data.set g.tile r.data }).gathered k d.index
    | [], b :: rest =>
      if b.turns > 1 then s.setDesc k d.index fun d => { d with writes := { b with turns := b.turns - 1 } :: rest }
      else if i.isTx then s.sendBlock k d b rest else s.writeBlock k d b rest
    | [], [] => s

/-- The channels of an engine in the order of their turns. -/
def turnOrder (s : State) (e : Nat) : List Nat :=
  (List.range 16).map fun j => 16 * e + ((s.pumps.engines.get {} e).turn + 1 + j) % 16

/-- The channel whose turn comes next, and the descriptor it serves: the oldest of its that can move 64 bytes now. -/
def nextTurn (s : State) (e : Nat) : Option (Nat × PDesc) :=
  if s.islandHalted (156 + e / 4) then none
  else (s.turnOrder e).findSome? fun k => ((s.pchan k).descs.find? (s.turnReady k)).map fun d => (k, d)

/-- Turns that a descriptor may still take, at most. -/
def turnsLeft (s : State) (k : Nat) (d : PDesc) : Nat :=
  let i := parseDesc d.raw
  if !d.dispatched || d.completed then 0
  else if i.isRx then match s.boundTo (.pump k) 1 with
    | some (c, unit) => ((s.port c).inbox.get [] unit).foldl (fun n g => n + g.length) 0
    | none => 0
  else d.reads.length + d.writes.foldl (fun n b => n + b.turns) 0 + i.dstSegs.foldl (fun n g => n + turnsFor g.len + 1) 0
    + turnsFor i.total

/-- Serves an engine's channels in rotating order, one 64-byte block per turn (R479). -/
def serveTurns : Nat → Nat → State → State
  | 0, _, s => s
  | fuel + 1, e, s =>
    match s.nextTurn e with
    | none => s
    | some (k, d) =>
      let s := { s with pumps := { s.pumps with engines := s.pumps.engines.upd {} e fun x => { x with turn := k % 16 } } }
      serveTurns fuel e (s.takeTurn k d)

/-- An engine takes turns until none of its channels can move another block (DESIGN CHOICE, log entry 71). -/
def serveEngine (s : State) (e : Nat) : State :=
  serveTurns (((List.range 16).flatMap fun c => (s.pchan (16 * e + c)).descs.map (s.turnsLeft (16 * e + c))).foldl (· + ·) 0) e s

/-- The engine may dispatch: not LOST (R273), IN_SERVICE (Table 22-2), its clock running. -/
def pumpRuns (s : State) (e : Nat) : Bool :=
  s.boot.device != .lost && s.inService (pumpUnit e) && !s.islandHalted (156 + e / 4)

/-- The next descriptor of a channel reaches dispatch (R495, R498, R499). -/
def dispatchNext (s : State) (k : Nat) : State :=
  let x := s.pchan k
  match x.descs.find? fun d => !d.dispatched && !d.completed with
  | none => s
  | some d =>
    let earlier := x.descs.takeWhile fun o => o.index != d.index
    if x.halt.isSome || !s.pumpRuns (k / 16) then s
    else
      match d.fail with
      | some (0x12, _, _) => s.haltOpen k d.index 0x12
      | some (cause, addr, kind) => s.haltDesc k d.index cause addr kind
      | none =>
        if (parseDesc d.raw).fence && earlier.any fun o => !o.completed then s
        else
          match d.job with
          | none => s.moveDesc k d
          | some id =>
            match s.xlat.jobs.get? id with
            | none => s
            | some j =>
              if j.remark && j.parked.isNone then s.restartJob id
              else
                match s.jobStatus id with
                | .waiting => s
                | .failed cause first side => s.haltDesc k d.index cause ((parseDesc d.raw).addrAt side first) 0
                | .ready => s.moveDesc k d

/-! ### Read-ahead (R433, R487, R494, R495) -/

/-- A descriptor the channel has read. -/
def enqueueDesc (s : State) (k index : Nat) (raw : Bytes) (tag : Option SeqTag) : State :=
  let x := s.pchan k
  let host := s.isHostChan k
  let i := parseDesc raw
  let d : PDesc := { index := index, raw := raw, tag := tag }
  let (s, d) :=
    if i.malformed raw host then (s, { d with fail := some (0x12, 0, 0) })
    else if host && !i.needs.isEmpty then
      let (s, id) := s.chanJob k x.fault i.needs
      (s, { d with job := some id })
    else (s, d)
  let x := s.pchan k
  s.setPchan k { x with descs := x.descs ++ [d] }

/-- A ring entry that could not be read: the channel halts with cause 0x13 when it reaches dispatch (R488). -/
def ringFail (s : State) (k : Nat) : State :=
  let x := s.pchan k
  let d : PDesc := { index := x.next, raw := List.replicate 64 0, fail := some (0x13, x.base + 64 * x.next, 0) }
  (s.dropJobs [x.ringJob]).setPchan k
    { x with descs := x.descs ++ [d], next := (x.next + 1) % 2 ^ x.log2, ringJob := none }

/-- The ring page is translated: the entry is read. -/
def readEntry (s : State) (k id : Nat) (entry : Bytes) : State :=
  let x := s.pchan k
  let a := x.base + 64 * x.next
  let (s, got) : State × Option Bytes := match s.place 0 (some id) 0 a with
    | .polder i o =>
      let (s, r) := s.polderRead i o 64 false
      (s, if r.bad.isSome then none else some r.bytes)
    | .host h dva =>
      ((s.emit (.hostRead x.fn ((s.space? x.ast).map (·.pasid)) h 64)).countAccess x.ast dva,
       if entry.length = 64 then some entry else none)
    | .window _ _ => (s, if entry.length = 64 then some entry else none)
    | _ => (s, none)
  match got with
  | none => s.ringFail k
  | some raw =>
    let x := s.pchan k
    let s := (s.dropJob id).setPchan k { x with next := (x.next + 1) % 2 ^ x.log2, ringJob := none }
    s.enqueueDesc k x.next raw none

def readAhead (s : State) (k : Nat) (entry : Bytes) : State :=
  let x := s.pchan k
  let ahead := (x.descs.filter fun d => !d.dispatched && !d.completed).length
  if !s.isHostChan k || x.closing.isSome || x.next = x.tail || ahead ≥ 8 || !s.pumpRuns (k / 16) then s
  else
    let (s, id) := match x.ringJob with
      | some id => match s.xlat.jobs.get? id with
        | some j => if j.remark then (s.restartJob id, id) else (s, id)
        | none => (s, id)
      | none =>
        let (s, id) := s.chanJob k false [⟨0, (x.base + 64 * x.next) / 4096, 0, 0⟩]
        (s.setPchan k { s.pchan k with ringJob := some id }, id)
    match s.jobStatus id with
    | .waiting => s
    | .failed _ _ _ => s.ringFail k
    | .ready => s.readEntry k id entry

/-! ### Completion (R500, R504, R521-R524) -/

/-- Nothing of the descriptor is under way any more. -/
def descDone (s : State) (k : Nat) (d : PDesc) : Bool :=
  let i := parseDesc d.raw
  d.dispatched && !d.completed && d.reads.isEmpty && d.writes.isEmpty && d.pieces.isEmpty && d.moved == i.total
    && (i.type != 0 || ((s.pchan k).descs.takeWhile fun o => o.index != d.index).all (·.completed))
    && (!i.isTx || match s.boundTo (.pump k) 0 with | some (c, u) => !s.unsent c u | none => true)

/-- PUMP.HEAD passes every completed descriptor at the front (R524). -/
def advanceHead (s : State) (k : Nat) : State :=
  let x := s.pchan k
  let done := x.descs.takeWhile (·.completed)
  let size := if s.isHostChan k then 2 ^ x.log2 else 65536
  s.setPchan k { x with descs := x.descs.drop done.length, head := (x.head + done.length) % size }

/-- A descriptor completes with a status: counters, its word, its report, the head. -/
def finishDesc (s : State) (k : Nat) (d : PDesc) (status : Nat) : State :=
  let i := parseDesc d.raw
  let s := (s.setDesc k d.index fun d => { d with completed := true, job := none }).dropJobs [d.job]
  let s := { s with pumps := { s.pumps with engines := s.pumps.engines.upd {} (k / 16) fun e =>
    { e with completed := e.completed + 1, quiet := e.quiet + d.quiet } } }
  let word := completionWord status d.moved d.quiet
  let s := match d.tag with
    | some tag => s.reportOp tag { record := toLE 8 word }
    | none => s
  let s := if s.isHostChan k && i.cmpl then (s.oweWord k d.index word i.irq).flushWords k else s
  s.advanceHead k

def completeDesc (s : State) (k index : Nat) : State :=
  let s := s.flushWords k
  match s.descAt k index with
  | some d => if s.descDone k d then s.finishDesc k d 0 else s
  | none => s

/-- A piece has come, or failed (R513, R822). -/
def pieceDone (s : State) (k index tile : Nat) (data : Option Bytes) (failCause addr : Nat) : State :=
  match s.descAt k index with
  | none => s
  | some d =>
    match d.pieces.find? fun p => p.tile == tile with
    | none => s
    | some p =>
      let i := parseDesc d.raw
      match data with
      | none =>
        let (a, kind) := failPlace i tile
        if p.write then s.haltDesc k index failCause addr i.dstKind else s.readFails k d failCause a kind
      | some bs =>
        let data := if p.write then d.data else d.data.set tile (fitBytes p.len bs)
        let s := s.setDesc k index fun d => { d with pieces := dropFirst p d.pieces, data := data }
        (s.gathered k index).serveEngine (k / 16)

/-- CHANNEL_RESUME with action 0 (R518): the descriptor is translated again in full and runs again from its first byte;
after a failed ring access its entry is read again. -/
def retryDesc (s : State) (k : Nat) (d : PDesc) (cause : Nat) : State :=
  let x := s.pchan k
  if cause = 0x13 then
    let later := x.descs.dropWhile fun o => o.index != d.index
    (s.dropJobs (later.map (·.job))).setPchan k
      { x with descs := x.descs.takeWhile fun o => o.index != d.index, next := d.index }
  else
    let s := s.setDesc k d.index fun d =>
      { d with fail := if cause = 0x12 then d.fail else none, moved := 0, quiet := 0, dispatched := false,
               reads := [], writes := [], pieces := [], data := {} }
    match d.job with
    | some id => s.restartJob id
    | none => s

/-! ### Closing (R168, R270) -/

/-- Discards the descriptors that have not started, those of the ring that are not read yet among them; answers how many. -/
def discardDescs (s : State) (k : Nat) : State × Nat :=
  let x := s.pchan k
  let unread := if s.isHostChan k then (x.tail + 2 ^ x.log2 - x.next % 2 ^ x.log2) % 2 ^ x.log2 else 0
  let gone := x.descs.filter fun d => !d.dispatched && !d.completed
  let s := s.abandonJobs (x.ringJob :: gone.map (·.job))
  (s.setPchan k { x with descs := x.descs.filter fun d => d.dispatched || d.completed, ringJob := none, next := x.tail },
   gone.length + unread)

/-- The channel is at its reset state: closed. -/
def closeChan (s : State) (k : Nat) : State :=
  let x := s.pchan k
  (s.abandonJobs (x.ringJob :: x.descs.map (·.job) ++ x.words.map fun w => some w.2.2.2)).setPchan k {}

/-- A function's host channels close (R270). -/
def closeChannels (s : State) (f : Nat) : State :=
  (s.pumps.chans.cells.filter fun c => decide (c.2.kind = .host) && c.2.fn == f).foldl (fun s c => s.closeChan c.1) s

/-- No descriptor is in progress and no completion word is owed. -/
def chanIdle (s : State) (k : Nat) : Bool :=
  ((s.pchan k).descs.all fun d => d.completed || !d.dispatched) && (s.pchan k).words.isEmpty

/-- A stream binding of a channel was removed, or its port lost (R506). -/
def streamLost (s : State) (k dir : Nat) : State :=
  match (s.pchan k).descs.find? fun d => d.dispatched && !d.completed && decide ((parseDesc d.raw).type = 4 + dir)
      && (decide (dir = 0) || decide (d.moved < (parseDesc d.raw).total)) with
  | some d => s.haltOpen k d.index 0x14
  | none => s

end State

/-! ### Kymal group 0x13 -/

/-- Channel key of a group 0x13 command. -/
def chanKey (k : KCmd) : Nat := 16 * unitIndex (k.u16 16) + k.u8 18

/-- A unit that must be IN_SERVICE (check 6). -/
def needService (s : State) (u : Nat) : Option Fail :=
  match s.unitState u with
  | .inService => none
  | .draining => failState 1 1
  | .outOfService => failState 1 2
  | .underTest => failState 1 3
  | .returning => failState 1 4

def channelOpenCmd : Cmd where
  opcode := 0x1301
  primary := .res
  lease := .shared
  sb := false
  inU := false
  layout := [(16, 2, 0xFFFF), (18, 1, 0xFF), (19, 1, 3), (20, 2, 0xFFFF), (22, 2, 0xFFFF), (24, 8, 2 ^ 64 - 1), (32, 1, 0xFF)]
  ref _ k := k.u16 16
  bad _ k := badUnit (k.u16 16) 16 (· == 0x08) ++ badIf (k.u8 18 > 15) 18
    ++ badIf (bitOf (k.u8 19) 1 != bitOf (k.u64 24) 47) 19 ++ badIf (k.u16 20 ≥ 4096) 20
    ++ badIf (!k.isSideband && decide (k.u16 22 ≥ vectorLimit k.master)) 22 ++ badIf (k.u64 24 % 4096 != 0 || k.u64 24 ≥ 2 ^ 48) 24
    ++ badIf (k.u8 32 < 4 || k.u8 32 > 16) 32
  names _ k := [astRef (k.u16 20)]
  check6 s k := (needService s (k.u16 16)).or (absent s (astRef (k.u16 20)))
  check10 s k :=
    if decide ((s.pchan (chanKey k)).kind = .closed) then none else some { status := stConflict, detail := noHolder }
  effect s k :=
    { state := s.setPchan (chanKey k)
        { kind := .host, fn := k.master, ast := k.u16 20, fault := bitOf (k.u8 19) 0, base := k.u64 24, log2 := k.u8 32,
          vector := k.u16 22 } }

/-- R486-R488, R167, R482. -/
def execChannelOpen (k : KCmd) (s : State) : Host.Outcome State Fault Refusal := .next (s.kymal channelOpenCmd k)

/-- Only the opener and the PF may close or resume a channel (R167). -/
def notOpener (s : State) (k : KCmd) : Bool := k.master != 0 && s.chanFn (chanKey k) != k.master

def channelCloseCmd : Cmd where
  opcode := 0x1302
  primary := .res
  lease := .shared
  accepted := true
  sb := false
  layout := [(16, 2, 0xFFFF), (18, 1, 0xFF)]
  ref _ k := k.u16 16
  bad _ k := badUnit (k.u16 16) 16 (· == 0x08) ++ badIf (k.u8 18 > 15) 18
  denied s k := s.isHostChan (chanKey k) && notOpener s k
  check6 s k := if s.isHostChan (chanKey k) then none
    else if decide ((s.pchan (chanKey k)).kind = .closed) then failState 4 0 else failState 4 1
  effect s k :=
    let (s, n) := s.discardDescs (chanKey k)
    let s := s.setPchan (chanKey k) { s.pchan (chanKey k) with closing := some n, halt := none }
    { state := s }
  finish s r _ :=
    let key := chanKey r.cmd
    let halted := ((s.pchan key).descs.filter fun d => !d.completed).length
    if s.chanIdle key then
      some (s.closeChan key, { status := stOk, result := toLE 4 ((s.pchan key).closing.getD 0 + halted) }) else none

/-- R167, R168. -/
def execChannelClose (k : KCmd) (s : State) : Host.Outcome State Fault Refusal := .next (s.kymal channelCloseCmd k)

def channelResumeCmd : Cmd where
  opcode := 0x1303
  primary := .res
  lease := .shared
  sb := false
  inU := false
  layout := [(16, 2, 0xFFFF), (18, 1, 0xFF), (19, 1, 0xFF)]
  ref _ k := k.u16 16
  bad _ k := badUnit (k.u16 16) 16 (· == 0x08) ++ badIf (k.u8 18 > 15) 18 ++ badIf (k.u8 19 > 1) 19
  denied s k := s.chanCode (chanKey k) != 0 && notOpener s k
  check6 s k := if s.chanCode (chanKey k) = 2 then none else failState 4 (s.chanCode (chanKey k))
  effect s k :=
    let key := chanKey k
    match (s.pchan key).halt with
    | none => { state := s }
    | some h =>
      let s := s.setPchan key { s.pchan key with halt := none }
      let s := match s.descAt key h.index with
        | none => s
        | some d =>
          if k.u8 19 = 1 then s.finishDesc key d stSkipped
          else
            s.retryDesc key d h.cause
      { state := s, result := toLE 4 h.index ++ toLE 1 h.cause ++ toLE 3 0 ++ toLE 8 h.addr }

/-- R517-R520. -/
def execChannelResume (k : KCmd) (s : State) : Host.Outcome State Fault Refusal := .next (s.kymal channelResumeCmd k)

/-! ### Rows -/

def chanOk (e c : Nat) : Bool := decide (e < 32) && decide (c < 16)

/-- R489, R490. -/
def execPumpDbWrite (f e c : Nat) (v : BitVec 32) (s : State) : Host.Outcome State Fault Refusal :=
  let key := 16 * e + c
  let x := s.pchan key
  .next (if chanOk e c && s.isHostChan key && x.fn == f && s.barUp f then
      s.into (156 + e / 4) (.pumpDbWrite f e c v) fun s => s.setPchan key { s.pchan key with tail := v.toNat % 65536 % 2 ^ x.log2 }
    else s)

/-- R433, R487, R488, R494, R495. -/
def execPumpReadAhead (e c : Nat) (entry : Bytes) (s : State) : Host.Outcome State Fault Refusal :=
  .next (if chanOk e c then s.readAhead (16 * e + c) entry else s)

/-- R479, R498-R510. -/
def execPumpDispatch (e c : Nat) (s : State) : Host.Outcome State Fault Refusal :=
  .next (if chanOk e c then (s.dispatchNext (16 * e + c)).serveEngine e else s)

/-- R513, Table 11-4 cause 0x11. -/
def execHostReadCompletion (e c index tile : Nat) (data : Option Bytes) (s : State) : Host.Outcome State Fault Refusal :=
  let row := Instr.hostReadCompletion e c index tile data
  .next (s.into islHost row fun s => s.into (156 + e / 4) row fun s => s.pieceDone (16 * e + c) index tile data 0x11 0)

/-- R500, R521-R524. -/
def execDescriptorComplete (e c index : Nat) (s : State) : Host.Outcome State Fault Refusal :=
  .next (s.into (156 + e / 4) (.descriptorComplete e c index) fun s => s.completeDesc (16 * e + c) index)

/-- R446, Table 11-4 cause 0x11. -/
def execCompletionTimeout (t : Timeout) (s : State) : Host.Outcome State Fault Refusal :=
  .next (if s.islandHalted islHost then s
    else match t with
    | .ats ast page => s.into islXlat (.atsCompletion ast page { error := true }) fun s => s.failAts ast page
    | .read e c index tile => s.into (156 + e / 4) (.hostReadCompletion e c index tile none) fun s =>
        s.pieceDone (16 * e + c) index tile none 0x11 0)

end Sys2Proof.Machine
end

