-- ==== Sys2Proof/Machine/Reduce.lean ====
section
/-! DEFINITION. Reducers: types, arithmetic, and one operation inside a merge-buffer entry (chapter 13). -/

namespace Sys2Proof.Machine

/-- Bytes of an operation's target (Table 13-1, R594). -/
def redBytes (type count : Nat) : Nat := if type = 6 then 32 * count else elemBytes type * count

/-- A listed type, and a run of 1 to 32 bytes of whole aligned elements within one sector (R578, R580). -/
def redFits (type count addr : Nat) : Bool :=
  decide (type ≤ 6) && decide (1 ≤ count) && decide (redBytes type count ≤ 32)
    && addr % (if type = 6 then 32 else elemBytes type) == 0 && decide (addr % 32 + redBytes type count ≤ 32)

/-- One element added (R590-R593). -/
def addElem (type a b : Nat) : Nat :=
  match type with
  | 0 => (a + b) % 2 ^ 32
  | 1 => (a + b) % 2 ^ 64
  | 2 => addFp fp32 a b
  | 3 => addFp bf16 a b
  | _ => addFp fp16 a b

/-- {sum, count} plus {value, increment} (R593). -/
def addAcc (old op : Bytes) : Bytes :=
  toLE 8 (addFp fp64 (fieldAt old 0 8) (fieldAt op 0 8)) ++ toLE 8 ((fieldAt old 8 8 + fieldAt op 8 8) % 2 ^ 64)

/-- The new bytes of a target. -/
def redApply (type count : Nat) (old op : Bytes) : Bytes :=
  if type = 6 then addAcc old op ++ toLE 8 (fieldAt old 16 8 + 1) ++ toLE 8 0
  else if type = 5 then (List.range count).flatMap fun i => addAcc (old.drop (16 * i)) (op.drop (16 * i))
  else
    let n := elemBytes type
    (List.range count).flatMap fun i => toLE n (addElem type (fieldAt old (n * i) n) (fieldAt op (n * i) n))

namespace State

/-- A failed operation: counted, the first on its sector in each second of TBASE reported (R588, R589, Table 13-7). -/
def redFailed (s : State) (n dpa type cause who unit : Nat) : State :=
  let r := s.gath.reducers.get {} n
  let sector := dpa / 32
  let e := r.errors.get {} sector
  let fire := e.last != some s.second
  let e' : SecondState := if fire then { last := some s.second, since := 0 } else { e with since := satInc 65535 e.since }
  let s := { s with gath := { s.gath with reducers := s.gath.reducers.set n { r with failed := r.failed + 1, errors := r.errors.set sector e' } } }
  if fire then
    s.raise 0x0A01 sevFailed (reducerUnit n)
      [(48, 32 * sector), (3, type), (2, cause), (2, who), (9, 0), (16, satInc 65535 e.since), (16, unit)]
  else s

/-- One reducer operation at a target DPA (R577, R584-R589): whether it was performed. The line leaves the Basin first
(R334); the operand sector comes from the entry, or is read, and the result goes into the entry. -/
def reduce (s : State) (dpa type count : Nat) (op : Bytes) (ordered : Bool) (who unit : Nat) : State × Bool :=
  match chanOf dpa with
  | none => (s, false)
  | some n =>
    let s := s.evictLine dpa
    let listed := (s.chan n).poison.contains (if n < 128 then dpa / 32 else dpa / 4096)
    let (s, r) := if n < 128 then s.narrowRead dpa else s.fullRead (alignDown dpa 32) 32 1
    match r.bad with
    | some b =>
      let cause := if decide (b = .unwritten) then 1 else if listed then 2 else 0
      (s.redFailed n dpa type cause who unit, false)
    | none =>
      let old := (r.bytes.drop (dpa % 32)).take (redBytes type count)
      let s := s.narrowWrite dpa (redApply type count old op)
      let count := fun (x : Reducer) => { x with applied := x.applied + 1, ordered := x.ordered + natOf ordered }
      ({ s with gath := { s.gath with reducers := s.gath.reducers.upd {} n count } }, true)

/-- The reducer of a DPA may start an operation: its channel serves, the device is not LOST (R274). -/
def redRuns (s : State) (dpa : Nat) : Bool :=
  s.boot.device != .lost && !s.memWaits dpa && !s.islandHalted (homeSlice dpa)

end State

end Sys2Proof.Machine
end

