-- ==== Sys2Proof/Machine/Gather.lean ====
section
/-! DEFINITION. Gather engines: jobs, masks, slots and records (chapter 13). Lanes are numbered 64 × engine + lane. -/

namespace Sys2Proof.Machine

/-- A gather job descriptor (Table 13-4). -/
structure GDesc where
  kind : Nat
  scoreKind : Nat
  lane : Nat
  ast : Nat
  head : Nat
  threshold : Nat
  kBase : Nat
  vBase : Nat
  table : Nat
  size : Nat
  pitch : Nat
  blocks : Nat
  window : Nat
  period : Nat
  lead : Nat
  tag : Nat
deriving DecidableEq, Repr

def parseGather (b : Bytes) : GDesc :=
  { kind := byteAt b 0 % 4, scoreKind := byteAt b 0 / 4 % 4, lane := byteAt b 1, ast := fieldAt b 2 2, head := fieldAt b 4 2,
    threshold := fieldAt b 6 2, kBase := fieldAt b 8 8, vBase := fieldAt b 16 8, table := fieldAt b 24 8, size := fieldAt b 32 4,
    pitch := fieldAt b 36 4, blocks := fieldAt b 40 4, window := fieldAt b 44 4, period := fieldAt b 48 4,
    lead := fieldAt b 52 4, tag := fieldAt b 56 8 }

namespace GDesc

/-- A limit of Table 13-4 is broken (R601). -/
def malformed (g : GDesc) (b : Bytes) : Bool :=
  byteAt b 0 / 16 != 0 || g.kind == 3 || g.scoreKind == 3 || decide (g.lane > 63) || decide (g.head > 32768)
    || g.kBase % 64 != 0 || g.vBase % 64 != 0 || g.table % 64 != 0
    || g.size % 64 != 0 || decide (g.size < 64) || decide (g.size > 65536)
    || decide (g.pitch < g.size) || g.pitch % 64 != 0 || g.blocks == 0 || decide (g.blocks > 32768)
    || decide (g.period < (2 * g.size + 79) / 80) || decide (g.lead > 2 ^ 24)

/-- R603 without the score. -/
def fixedAnchor (g : GDesc) (b : Nat) : Bool := decide (b < g.head) || b == g.blocks - 1

/-- R604. -/
def isFar (g : GDesc) (b : Nat) : Bool := g.window != 0 && decide (b + 1 + g.window < g.blocks)

/-- The score table is read (R607). -/
def needsScores (g : GDesc) : Bool :=
  g.threshold != 0 || (List.range g.blocks).any fun b => g.isFar b && !g.fixedAnchor b

/-- 0 fetched, 1 skipped as far, 2 skipped as weak (R603-R606). A far block is counted as far. -/
def classify (g : GDesc) (b score : Nat) : Nat :=
  if g.fixedAnchor b || (g.needsScores && score == 0xFFFF) then 0
  else if g.isFar b then 1
  else if g.threshold != 0 && decide (score < g.threshold) then 2
  else 0

/-- The runs of one block: K then V, or of the score table. -/
def blockSegs (g : GDesc) (b : Nat) : List Seg :=
  Seg.pages ⟨0, g.kBase + b * g.pitch, g.size⟩ ++ Seg.pages ⟨g.size, g.vBase + b * g.pitch, g.size⟩
def tableSegs (g : GDesc) : List Seg := Seg.pages ⟨0, g.table, (2 * g.blocks + 63) / 64 * 64⟩

end GDesc

/-- Reading through one or more segments: state, bytes, host bytes still unused, why it failed. -/
structure Fetch where
  state : State
  bytes : Bytes := []
  host : Bytes
  bad : Bool := false

namespace State

def lane (s : State) (l : Nat) : Lane := s.gath.lanes.get {} l

def setLane (s : State) (l : Nat) (x : Lane) : State := { s with gath := { s.gath with lanes := s.gath.lanes.set l x } }

/-- The running job of a lane. -/
def laneJob (s : State) (l : Nat) : Option GatherJob := (s.lane l).jobs.head?

def setLaneJob (s : State) (l : Nat) (j : GatherJob) : State :=
  let x := s.lane l
  s.setLane l { x with jobs := j :: x.jobs.drop 1 }

/-- Sends the accesses of one run of an outbound window; whether every one found a route (R812, R816). -/
def windowAccess (s : State) (unit n o op : Nat) (bs : Bytes) (len : Nat) : State × Bool :=
  (Seg.cut 256 ⟨0, o, len⟩).foldl (fun (acc : State × Bool) c =>
    match acc.1.remoteAccess n c.addr op c.len 0 ((bs.drop c.tile).take c.len) (.unit unit) with
    | some s => (s, acc.2)
    | none => (acc.1, false)) (s, true)

/-- Reads one run for a job of a unit; bytes of the host or of a window come with the command, in order. `alloc`: a cache
line allocates (Table 8-1). -/
def fetchSeg (unit : Nat) (alloc : Bool) (caddy : Nat) (job : Option Nat) (kind fn ast : Nat) (acc : Fetch) (g : Seg) : Fetch :=
  let s := acc.state
  match s.place caddy job kind g.addr with
  | .host h dva =>
    let s := (s.emit (.hostRead fn ((s.space? ast).map (·.pasid)) h g.len)).countAccess ast dva
    { acc with state := s, bytes := acc.bytes ++ fitBytes g.len (acc.host.take g.len), host := acc.host.drop g.len,
               bad := acc.bad || decide (acc.host.length < g.len) }
  | .window n o =>
    let (s, ok) := s.windowAccess unit n o opRead [] g.len
    { acc with state := s, bytes := acc.bytes ++ fitBytes g.len (acc.host.take g.len), host := acc.host.drop g.len,
               bad := acc.bad || !ok || decide (acc.host.length < g.len) }
  | .outside => { acc with bytes := acc.bytes ++ List.replicate g.len 0, bad := true }
  | p =>
    let (s, r) := s.readPlace p g.len alloc
    { acc with state := s, bytes := acc.bytes ++ r.bytes, bad := acc.bad || r.bad.isSome }

def fetchSegs (s : State) (unit : Nat) (alloc : Bool) (caddy : Nat) (job : Option Nat) (kind fn ast : Nat) (host : Bytes)
    (segs : List Seg) : Fetch :=
  segs.foldl (fetchSeg unit alloc caddy job kind fn ast) { state := s, host := host }

/-- A run of a program lies outside what it owns (R330, R331, R485). -/
def segOutside (s : State) (caddy kind : Nat) (g : Seg) : Bool := kind != 0 && !s.confined caddy kind g.addr g.len

/-- A translation of a gather engine's requester. -/
def laneXlat (s : State) (l ast caddy : Nat) (need : List Need) : State × Nat :=
  s.startJob { requester := 1, engine := 32 + l / 64, unit := gatherUnit (l / 64), fn := s.caddyFn caddy, ast := ast,
               need := need }

/-- The job delivers no further slot and ends with a status (R600-R602, R618). -/
def endGather (s : State) (l : Nat) (j : GatherJob) (status : Nat) : State :=
  s.setLaneJob l { j with ended := true, masked := true, status := status }

/-- An access outside the program's quarters or polders traps the issuing sequencer (R331). -/
def trapGather (s : State) (j : GatherJob) (addr : Nat) : State :=
  s.reportOp j.tag { record := [], trap := some { cause := 3, addr := addr } }

/-- The scores are known: the mask is fixed; the pages of fetched blocks are translated (R606, R614). -/
def maskJob (s : State) (l : Nat) (j : GatherJob) (scores : Bytes) : State :=
  let g := parseGather j.raw
  let mask := (List.range g.blocks).map fun b => g.classify b (fieldAt scores (2 * b) 2)
  let fetched := (List.range g.blocks).filter fun b => (mask[b]?).getD 0 == 0
  let segs := fetched.flatMap g.blockSegs
  match segs.find? (s.segOutside j.caddy g.kind) with
  | some bad =>
    (s.endGather l { j with mask := mask } 0x16).trapGather j bad.addr
  | none =>
    if g.kind = 0 then
      let (s, id) := s.laneXlat l g.ast j.caddy (needsOf 0 0 segs)
      s.setLaneJob l { j with mask := mask, job := some id }
    else s.setLaneJob l { j with mask := mask, masked := true }

/-- Reads the score table (R607). A block of it that cannot be read gives free scores (DESIGN CHOICE, log entry 18). -/
def readScores (s : State) (l : Nat) (j : GatherJob) (host : Bytes) : State :=
  let g := parseGather j.raw
  if !g.needsScores then s.maskJob l j []
  else
    match g.tableSegs.find? (s.segOutside j.caddy g.scoreKind) with
    | some bad => (s.endGather l j 0x16).trapGather j bad.addr
    | none =>
      let step := fun (acc : State × Bytes × Bytes) (seg : Seg) =>
        (List.range (seg.len / 64)).foldl (fun (acc : State × Bytes × Bytes) n =>
          let (s, out, host) := acc
          let f := s.fetchSegs (gatherUnit (l / 64)) true j.caddy j.job g.scoreKind (s.caddyFn j.caddy) g.ast host [⟨0, seg.addr + 64 * n, 64⟩]
          let free := (List.range 64).map fun i => Config.freeByte (f.state.freeCtr + i)
          if f.bad then ({ f.state with freeCtr := f.state.freeCtr + 64 }, out ++ free, f.host)
          else (f.state, out ++ f.bytes, f.host)) acc
      let (s, scores, _) := g.tableSegs.foldl step (s, [], host)
      (s.dropJobs [j.job]).maskJob l { j with job := none } scores

/-- The first checks of a job (R600-R602). -/
def checkGather (s : State) (l : Nat) (j : GatherJob) : Option Nat :=
  let g := parseGather j.raw
  let astOk := (g.kind != 0 && g.scoreKind != 0) || match s.space? g.ast with
    | some x => x.fn == s.caddyFn j.caddy
    | none => false
  let laneOk := match s.boundTo (.gather l) 0 with
    | some (c, _) => (s.port c).caddy == some j.caddy
    | none => false
  if j.status != 0 then some j.status
  else if !astOk then some 0x16
  else if !laneOk then some 0x14
  else if g.malformed j.raw then some 0x12
  else none

/-- Every slot will be a POISON marker (R615). -/
def poisonJob (s : State) (l : Nat) (j : GatherJob) (cause : Nat) : State :=
  s.setLaneJob l { j with allPoison := true, masked := true, status := if j.status = 0 then cause else j.status }

def gatherRuns (s : State) (e : Nat) : Bool :=
  !s.islandHalted (172 + e) && (match s.unitState (gatherUnit e) with | .inService | .draining => true | _ => false)

/-- Carries the acceptance of a lane's first job forward (R600-R607, R614, R615). -/
def acceptJob (s : State) (l : Nat) (host : Bytes) : State :=
  match s.laneJob l with
  | none => s
  | some j =>
    let g := parseGather j.raw
    if j.masked || !s.gatherRuns (l / 64) then s
    else if j.accepted.isNone then
      if s.boot.device = .lost then s
      else
        match s.checkGather l j with
        | some status => s.endGather l { j with accepted := some s.now } status
        | none =>
          let j := { j with accepted := some s.now }
          if g.scoreKind = 0 && g.needsScores then
            let (s, id) := s.laneXlat l g.ast j.caddy (needsOf 2 0 g.tableSegs)
            (s.setLaneJob l { j with job := some id })
          else s.readScores l j host
    else
      match j.job with
      | none => s.readScores l j host
      | some id =>
        match s.jobStatus id with
        | .waiting =>
          match s.xlat.jobs.get? id with
          | some x => if x.remark then s.restartJob id else s
          | none => s
        | .failed cause _ _ => (s.dropJob id).poisonJob l { j with job := none } cause
        | .ready => if j.mask.isEmpty then s.readScores l j host else s.setLaneJob l { j with masked := true }

/-- A re-marked job translates its remaining fetched blocks again (R617). -/
def retranslate (s : State) (j : GatherJob) (id : Nat) : State :=
  let g := parseGather j.raw
  match s.xlat.jobs.get? id with
  | none => s
  | some x =>
    if !x.remark then s
    else
      let left := (List.range g.blocks).filter fun b => decide (j.slot ≤ b) && (j.mask[b]?).getD 0 == 0
      (s.setJob id { x with need := needsOf 0 0 (left.flatMap g.blockSegs) }).restartJob id

/-- The cause for which a block's page failed its translation. -/
def blockFail (s : State) (id : Nat) (segs : List Seg) : Option Nat :=
  match s.xlat.jobs.get? id with
  | none => none
  | some x => segs.findSome? fun g => (x.fails.find? fun f => f.1 == g.addr / 4096).map (·.2)

/-- Sends a slot: markers, or the K and V parts. -/
def sendSlot (s : State) (l c unit : Nat) (j : GatherJob) (mark : Nat) (data : Bytes) (cause : Nat) : State :=
  let g := parseGather j.raw
  let n := 2 * g.size / 64
  let halves := (List.range n).map fun i => if mark = markData then (markData, (data.drop (64 * i)).take 64) else (mark, [])
  let late := match j.releases.head? with
    | some r => decide (s.now > r)
    | none => false
  let bad := mark == markPoison
  let s := s.setLaneJob l
    { j with slot := j.slot + 1, releases := j.releases.drop 1, late := j.late + natOf late,
             poison := j.poison + natOf bad, firstFail := if bad && j.poison = 0 then j.slot else j.firstFail,
             status := if bad && j.status = 0 then cause else j.status }
  let count := fun (e : GatherEng) =>
    { e with slots := e.slots + 1, skipped := e.skipped + natOf (mark == markSkip), late := e.late + natOf late,
             avoided := e.avoided + (if mark = markSkip then 2 * g.size else 0) }
  State.sendHalves { s with gath := { s.gath with engines := s.gath.engines.upd {} (l / 64) count } } c unit halves

/-- Delivers the next slot (R609-R618). -/
def deliverSlot (s : State) (l : Nat) (host : Option Bytes) : State :=
  match s.laneJob l with
  | none => s
  | some j =>
    let g := parseGather j.raw
    if !j.masked || j.ended || j.releases.isEmpty || !s.gatherRuns (l / 64) then s
    else
      match s.boundTo (.gather l) 0 with
      | none => s.endGather l j 0x14
      | some (c, unit) =>
        if (s.port c).dead then s.endGather l j 0x14
        else if j.allPoison then s.sendSlot l c unit j markPoison [] j.status
        else if (j.mask[j.slot]?).getD 0 ≠ 0 then s.sendSlot l c unit j markSkip [] 0
        else
          let s := match j.job with
            | some id => s.retranslate j id
            | none => s
          let segs := g.blockSegs j.slot
          let waits := match j.job with
            | some id => match s.xlat.jobs.get? id with
              | some x => x.remark || x.need.any fun n => !x.resolved n
              | none => false
            | none => false
          if waits || segs.any fun q => s.placeWaits (s.place j.caddy j.job g.kind q.addr) q.len then s
          else
            match j.job.bind fun id => s.blockFail id segs with
            | some cause => s.sendSlot l c unit j markPoison [] cause
            | none =>
              let f := s.fetchSegs (gatherUnit (l / 64)) true j.caddy j.job g.kind (s.caddyFn j.caddy) g.ast (host.getD []) segs
              if f.bad then f.state.sendSlot l c unit j markPoison [] 0x10
              else f.state.sendSlot l c unit j markData f.bytes 0

/-- The completion record (Table 13-5). -/
def gatherRecord (j : GatherJob) : Bytes :=
  let g := parseGather j.raw
  let n := fun k => (j.mask.filter (· == k)).length
  toLE 16 (packBits [(1, 1), (7, 0), (8, j.status), (16, if j.allPoison then 0 else n 0), (16, n 1), (16, n 2),
    (16, min j.late 65535), (16, j.poison), (32, g.tag)])

/-- The job is over: its record goes to its sequencer (R613, R619). -/
def finishJob (s : State) (l : Nat) : State :=
  match s.laneJob l with
  | none => s
  | some j =>
    let g := parseGather j.raw
    if !(j.ended || (j.masked && decide (j.slot ≥ g.blocks))) then s
    else
      let s := (s.dropJobs [j.job]).setLane l { s.lane l with jobs := (s.lane l).jobs.drop 1 }
      let trap := ((s.sq j.tag.seq).ops.find? fun o => o.id == j.tag.op).bind fun o => o.done.bind (·.trap)
      let s := s.reportOp j.tag { record := gatherRecord j, trap := trap }
      if j.status = 0 then s
      else s.raise 0x0A02 sevFailed (gatherUnit (l / 64))
        [(6, l % 64), (2, 0), (8, j.status), (16, j.firstFail), (16, j.poison), (6, j.tag.seq), (10, 0), (32, g.tag)]

/-- The lane's binding was removed or its port lost (R618). -/
def gatherLost (s : State) (l : Nat) : State :=
  match s.laneJob l with
  | some j => if j.accepted.isSome && !j.ended then s.endGather l j 0x14 else s
  | none => s

end State

def laneOk (e l : Nat) : Bool := decide (e < 8) && decide (l < 64)

/-- R600-R607, R614, R615. -/
def execGatherJobAccept (e lane : Nat) (scores : Bytes) (s : State) : Host.Outcome State Fault Refusal :=
  .next (if laneOk e lane then s.acceptJob (64 * e + lane) scores else s)

/-- R608: the release time of the next slot on the job's grid, in cycles of the gather clock. -/
def execGatherSlotRelease (e lane : Nat) (s : State) : Host.Outcome State Fault Refusal :=
  .next (match s.laneJob (64 * e + lane) with
    | some j =>
      if laneOk e lane && !s.islandHalted (172 + e) && j.masked && !j.ended && decide (j.slot + j.releases.length < (parseGather j.raw).blocks) then
        s.setLaneJob (64 * e + lane) { j with releases := j.releases ++ [s.now] }
      else s
    | none => s)

/-- R609-R612, R615-R618. -/
def execGatherSlotDeliver (e lane : Nat) (host : Option Bytes) (s : State) : Host.Outcome State Fault Refusal :=
  .next (if laneOk e lane then s.deliverSlot (64 * e + lane) host else s)

/-- R613, R619. -/
def execGatherJobComplete (e lane : Nat) (s : State) : Host.Outcome State Fault Refusal :=
  .next (if laneOk e lane then s.finishJob (64 * e + lane) else s)

end Sys2Proof.Machine
end

