-- ==== Sys2Proof/Machine/Codec.lean ====
section
/-! DEFINITION. The Infuser's formats: Microscaling groups and LEAF-L blocks, in both directions (R536-R545). -/

namespace Sys2Proof.Machine

/-! ### Format codes (Table 12-1) -/

def fmtElem (c : Nat) : Nat := c % 8
def fmtWork (c : Nat) : Nat := c / 8 % 4
def fmtLeaf (c : Nat) : Bool := bitOf c 5

/-- R537. -/
def fmtValid (c : Nat) : Bool :=
  c / 64 == 0 && decide (fmtElem c ≤ 6)
    && (if fmtElem c = 0 then fmtWork c == 0 && fmtLeaf c else fmtWork c != 0)

/-- The working format. -/
def workFmt (w : Nat) : Fmt := if w = 1 then bf16 else if w = 2 then fp16 else fp32

/-- Bytes of a working element. -/
def workBytes (w : Nat) : Nat := if w = 3 then 4 else 2

/-- An element format: width, exponent and fraction bits, emax, code of the largest magnitude (Table 12-2). -/
structure MxFmt where
  bits : Nat
  fmt : Fmt
  emax : Nat
  top : Nat
deriving DecidableEq, Repr

def mxFmt (e : Nat) : MxFmt :=
  match e with
  | 1 => ⟨8, ⟨4, 3⟩, 8, 0x7E⟩
  | 2 => ⟨8, ⟨5, 2⟩, 15, 0x7B⟩
  | 3 => ⟨6, ⟨3, 2⟩, 4, 0x1F⟩
  | 4 => ⟨6, ⟨2, 3⟩, 2, 0x1F⟩
  | 5 => ⟨4, ⟨2, 1⟩, 2, 0x07⟩
  | _ => ⟨8, ⟨0, 7⟩, 0, 0x7F⟩

def groupElems : Nat := 2048

/-- Bytes of a packed and of a working group (Table 12-2). -/
def packedGroup (c : Nat) : Nat := 64 + groupElems * (mxFmt (fmtElem c)).bits / 8
def workGroup (c : Nat) : Nat := groupElems * workBytes (fmtWork c)

/-! ### Elements (R539-R542) -/

/-- The value of an element code. E4M3's all-ones code is NaN and E5M2 has infinities and NaNs, as OCP MX v1.0 has them
(PRESUMED, log entry 20). -/
def mxValue (e code : Nat) : FVal :=
  let m := mxFmt e
  if e = 6 then
    let v := signedOf 8 code
    .fin (decide (v < 0)) v.natAbs (-6)
  else if e = 2 then decodeFp m.fmt code
  else if e = 1 && code % 128 = 0x7F then .nan
  else
    let neg := bitOf code (m.bits - 1)
    let ex := bitsOf code m.fmt.m m.fmt.e
    let fr := code % 2 ^ m.fmt.m
    if ex = 0 then .fin neg fr (1 - (m.fmt.bias : Int) - m.fmt.m)
    else .fin neg (2 ^ m.fmt.m + fr) ((ex : Int) - m.fmt.bias - m.fmt.m)

/-- `mag × 2^exp` rounded to nearest even as an element code, saturating (R540). -/
def mxEncode (e : Nat) (neg : Bool) (mag : Nat) (exp : Int) : Nat :=
  let m := mxFmt e
  if e = 6 then
    let k := -6 - exp
    let v := min (if k ≤ 0 then mag * 2 ^ (-k).toNat else shiftRne mag k.toNat) m.top
    if neg then (256 - v) % 256 else v
  else
    let s := if neg then 2 ^ (m.bits - 1) else 0
    if mag = 0 then s
    else
      let q := max ((bitLength mag : Int) - 1 + exp) (1 - (m.fmt.bias : Int)) - m.fmt.m
      let k := q - exp
      let mant := if k ≤ 0 then mag * 2 ^ (-k).toNat else shiftRne mag k.toNat
      s + min ((q + m.fmt.m + m.fmt.bias - 1).toNat * 2 ^ m.fmt.m + mant) m.top

/-- floor(log2) of a value's magnitude. -/
def floorLog (v : FVal) : Option Int :=
  match v with
  | .fin _ mag exp => if mag = 0 then none else some ((bitLength mag : Int) - 1 + exp)
  | _ => none

/-- The scale byte and the codes of one block of 32 values (R539-R541). -/
def mxBlock (e : Nat) (vs : List FVal) : Nat × List Nat :=
  if vs.any fun v => match v with | .fin _ _ _ => false | _ => true then (0xFF, vs.map fun _ => 0)
  else
    let top := vs.foldl (fun (best : Option Int) v => match best, floorLog v with
      | some a, some b => some (max a b)
      | a, none => a
      | none, b => b) none
    let sh : Int := match top with
      | none => -127
      | some a => max (-127) (min 127 (a - (mxFmt e).emax))
    ((sh + 127).toNat, vs.map fun v => match v with
      | .fin n m x => mxEncode e n m (x - sh)
      | _ => 0)

/-- The working bits of an element under a scale (R542). -/
def mxDecode (e : Nat) (f : Fmt) (scale code : Nat) : Nat :=
  if scale = 0xFF then f.nanBits
  else
    match mxValue e code with
    | .fin n m x => encodeFp f (.fin n m (x + (scale : Int) - 127))
    | v => encodeFp f v

/-! ### Groups -/

/-- Four element codes in `bits / 2` bytes, lowest bits first. -/
def packFour (bits : Nat) (cs : List Nat) : Bytes := toLE (bits / 2) (packBits (cs.map fun c => (bits, c)))

/-- Applies a function to consecutive runs of `n` items. -/
def inRuns {α β : Type} (n : Nat) (f : List α → List β) : Nat → List α → List β
  | 0, _ => []
  | fuel + 1, l => if l.isEmpty then [] else f (l.take n) ++ inRuns n f fuel (l.drop n)

/-- One working group packed. -/
def mxPackGroup (c : Nat) (bs : Bytes) : Bytes :=
  let w := workBytes (fmtWork c)
  let vs := (List.range groupElems).map fun i => decodeFp (workFmt (fmtWork c)) (fieldAt bs (w * i) w)
  let blocks := (List.range 64).map fun b => mxBlock (fmtElem c) ((vs.drop (32 * b)).take 32)
  let codes := blocks.flatMap (·.2)
  blocks.flatMap (fun b => toLE 1 b.1) ++ inRuns 4 (packFour (mxFmt (fmtElem c)).bits) 512 codes

/-- One packed group unpacked. -/
def mxUnpackGroup (c : Nat) (bs : Bytes) : Bytes :=
  let m := mxFmt (fmtElem c)
  (List.range groupElems).flatMap fun i =>
    let quad := fieldAt bs (64 + i / 4 * (m.bits / 2)) (m.bits / 2)
    toLE (workBytes (fmtWork c)) (mxDecode (fmtElem c) (workFmt (fmtWork c)) (byteAt bs (i / 32)) (bitsOf quad (i % 4 * m.bits) m.bits))

def mxPack (c : Nat) (bs : Bytes) : Bytes := inRuns (workGroup c) (mxPackGroup c) (bs.length / workGroup c) bs
def mxUnpack (c : Nat) (bs : Bytes) : Bytes := inRuns (packedGroup c) (mxUnpackGroup c) (bs.length / packedGroup c) bs

/-! ### LEAF-L -/

def leafRaw : Nat := 65536

/-- The transposed block: planes of every stride-th byte. -/
def transpose (stride : Nat) (bs : Bytes) : Bytes :=
  (List.range stride).flatMap fun p => (List.range (bs.length / stride)).map fun i => (bs[i * stride + p]?).getD 0

def untranspose (stride : Nat) (bs : Bytes) : Bytes :=
  let n := bs.length / stride
  (List.range n).flatMap fun i => (List.range stride).map fun p => (bs[p * n + i]?).getD 0

/-- Symbols by code length, in the order of their canonical codes (RFC 1951 section 3.2.2). -/
def codeSyms (lens : List Nat) : List Nat :=
  (List.range 15).flatMap fun l => (List.range 256).filter fun s => (lens[s]?).getD 0 == l + 1

/-- Symbols of each length 1-15. -/
def codeCounts (lens : List Nat) : List Nat := (List.range 15).map fun l => (lens.filter (· == l + 1)).length

/-- The lengths ask for more codes than there are (R544). -/
def overSubscribed (lens : List Nat) : Bool :=
  decide (((List.range 15).map fun l => (codeCounts lens)[l]?.getD 0 * 2 ^ (14 - l)).foldl (· + ·) 0 > 2 ^ 15)

/-- Reads one symbol: its place among the canonical codes, and the bits left. -/
def readCode : List Nat → Nat → Nat → Nat → List Bool → Option (Nat × List Bool)
  | [], _, _, _, _ => none
  | _, _, _, _, [] => none
  | n :: counts, code, first, index, b :: rest =>
    let code := code + natOf b
    if code < first + n then some (index + (code - first), rest)
    else readCode counts (2 * code) (2 * (first + n)) (index + n) rest

/-- Reads exactly `n` symbols. -/
def readCodes (counts syms : List Nat) : Nat → List Bool → Option (Bytes × List Bool)
  | 0, bits => some ([], bits)
  | n + 1, bits =>
    match readCode counts 0 0 0 bits with
    | none => none
    | some (i, rest) => (readCodes counts syms n rest).map fun r => (BitVec.ofNat 8 ((syms[i]?).getD 0) :: r.1, r.2)

/-- Bits of a byte run, least significant first. -/
def bitsOfBytes (bs : Bytes) : List Bool := bs.flatMap fun b => (List.range 8).map fun i => bitOf b.toNat i

/-- The length table of a CODED payload. -/
def lengthTable (bs : Bytes) : List Nat := (bs.take 128).flatMap fun b => [b.toNat % 16, b.toNat / 16]

/-- The raw bytes of a CODED payload; none where it does not yield exactly `raw` symbols (R544). -/
def decodeCoded (raw stride : Nat) (payload : Bytes) : Option Bytes :=
  let lens := lengthTable payload
  if payload.length < 128 || overSubscribed lens then none
  else
    match readCodes (codeCounts lens) (codeSyms lens) raw (bitsOfBytes (payload.drop 128)) with
    | none => none
    | some (out, rest) => if rest.length < 8 then some (untranspose stride out) else none

def pad64 (n : Nat) : Nat := (n + 63) / 64 * 64

/-- One block at the front of a stream: its bytes and its length in the stream; none where it is malformed. -/
def leafBlock (bs : Bytes) : Option (Bytes × Nat) :=
  let payload := fieldAt bs 0 4
  let raw := fieldAt bs 4 4
  let mode := byteAt bs 8
  let stride := byteAt bs 9
  let body := (bs.drop 16).take payload
  let next := pad64 (16 + payload)
  if bs.length < 16 || raw < 1 || raw > leafRaw || mode > 1 || !([1, 2, 4].contains stride) || raw % stride != 0
      || fieldAt bs 10 6 != 0 || body.length < payload || (bs.length > next && raw != leafRaw) then none
  else if mode = 0 then (if payload = raw then some (body, next) else none)
  else (decodeCoded raw stride body).map fun o => (o, next)

/-- Decodes a LEAF-L stream: the bytes of the blocks before the first malformed one, and whether there is none. -/
def leafDecode : Nat → Bytes → Bytes × Bool
  | 0, bs => ([], bs.isEmpty)
  | fuel + 1, bs =>
    if bs.isEmpty then ([], true)
    else
      match leafBlock bs with
      | none => ([], false)
      | some (out, n) =>
        let r := leafDecode fuel (bs.drop n)
        (out ++ r.1, r.2)

/-- The code of a symbol, most significant bit first. -/
def codeBits (lens : List Nat) (s : Nat) : List Bool :=
  let l := (lens[s]?).getD 0
  let counts := codeCounts lens
  let first := (List.range (l - 1)).foldl (fun c i => 2 * (c + counts[i]?.getD 0)) 0
  let code := first + ((List.range s).filter fun t => (lens[t]?).getD 0 == l).length
  (List.range l).map fun i => bitOf code (l - 1 - i)

/-- Packs bits into bytes, least significant first. -/
def packBytes : Nat → List Bool → Bytes
  | 0, _ => []
  | n + 1, l => if l.isEmpty then [] else
      BitVec.ofNat 8 (packBits ((l.take 8).map fun b => (1, natOf b))) :: packBytes n (l.drop 8)

/-- The CODED payload with the stepping's stride and lengths, where they describe the block. -/
def codedPayload (bs : Bytes) : Option (Nat × Bytes) :=
  let (stride, lens) := Config.leafCode bs
  let ok := [1, 2, 4].contains stride && bs.length % stride == 0 && lens.length == 256 && lens.all (· ≤ 15)
    && !overSubscribed lens && bs.all fun b => (lens[b.toNat]?).getD 0 != 0
  if !ok then none
  else
    let table := inRuns 2 (fun p => [BitVec.ofNat 8 (p[0]?.getD 0 + 16 * p[1]?.getD 0)]) 128 lens
    let bits := (transpose stride bs).flatMap fun b => codeBits lens b.toNat
    some (stride, table ++ packBytes (bits.length / 8 + 1) bits)

/-- One input block packed: STORED where CODED would not be smaller (R545). -/
def leafEncodeBlock (bs : Bytes) : Bytes :=
  let lay := fun (mode stride : Nat) (p : Bytes) =>
    fitBytes (pad64 (16 + p.length)) (toLE 4 p.length ++ toLE 4 bs.length ++ toLE 1 mode ++ toLE 1 stride ++ toLE 6 0 ++ p)
  match codedPayload bs with
  | some (stride, p) => if p.length < bs.length then lay 1 stride p else lay 0 1 bs
  | none => lay 0 1 bs

def leafEncode (bs : Bytes) : Bytes := inRuns leafRaw leafEncodeBlock (bs.length / leafRaw + 1) bs

/-! ### Whole jobs -/

/-- Input of a job that needs whole groups and has none (R538); of an INFUSE with LEAF-L it is known once decoded. -/
def badLength (dir c len : Nat) : Bool :=
  fmtElem c != 0 && (if dir = 0 then len % workGroup c != 0 else !fmtLeaf c && len % packedGroup c != 0)

/-- The output of a job for its source bytes, and its status. -/
def transform (dir c : Nat) (src : Bytes) : Bytes × Nat :=
  if c = 0 then (src, 0)
  else if dir = 0 then
    let a := if fmtElem c = 0 then src else mxPack c src
    (if fmtLeaf c then leafEncode a else a, 0)
  else
    let (a, ok) := if fmtLeaf c then leafDecode (src.length / 64 + 1) src else (src, true)
    let whole := fmtElem c == 0 || a.length % packedGroup c == 0
    let out := if fmtElem c = 0 then a else mxUnpack c a
    if !ok then (out, 0x21) else if whole then (out, 0) else ([], 0x12)

/-- The largest packed size for an input length (R570). -/
def largestPacked (c len : Nat) : Nat :=
  let a := if fmtElem c = 0 then len else len / workGroup c * packedGroup c
  if fmtLeaf c then a / leafRaw * 65600 + (if a % leafRaw = 0 then 0 else pad64 (16 + a % leafRaw)) else a

end Sys2Proof.Machine
end

