-- ==== Sys2Proof/Machine/Polders.lean ====
section
/-! DEFINITION. Kymal groups 0x10 and 0x11, placement tables and page conversions (chapters 04, 07, 08, 22). -/

namespace Sys2Proof.Machine

/-! ### Pieces of channels -/

/-- Number of ones in the low `n` bits. -/
def popCount : Nat → Nat → Nat
  | 0, _ => 0
  | n + 1, v => v % 2 + popCount n (v / 2)

/-- Stripes of a near channel or user slabs of a board channel (chapter 07). -/
def pieceCount (n : Nat) : Nat := if n < 128 then 1536 else 112

/-- DPA pages of a piece list. -/
def inPieces (vs : List Nat) (dpa : Nat) : Bool :=
  match pieceOf dpa with
  | some v => vs.contains v
  | none => false

namespace State

/-- Pieces a channel may give to polders: a trained board channel shares 114 slabs with the reserved area (R316). -/
def capacity (s : State) (n : Nat) : Nat :=
  if n < 128 then 1536
  else if s.mem.trained.contains (n - 128) then min 112 (114 - s.mem.reserved.get 0 (n - 128)) else 0

def piecesUsed (s : State) (n : Nat) : Nat := popCount (pieceCount n) (s.chan n).used

def piecesFree (s : State) (n : Nat) : Nat := s.capacity n - s.piecesUsed n

/-- New pieces may be taken on the channel. -/
def takesPieces (s : State) (n : Nat) : Bool := s.inService (chanUnit n)

/-- Lowest free piece of a channel. -/
def freePiece (s : State) (n : Nat) : Option Nat :=
  if s.takesPieces n && s.piecesFree n != 0 then
    (List.range (pieceCount n)).find? fun j => !bitOf (s.chan n).used j
  else none

def usePiece (s : State) (n j : Nat) (on : Bool) : State :=
  let c := s.chan n
  s.setChan n { c with used := setBit c.used j on }

/-- The channel of a list with the most free pieces, the first of equals. -/
def mostFree (s : State) (ns : List Nat) : Option Nat :=
  let open_ := ns.filter fun n => (s.freePiece n).isSome
  open_.foldl (fun best n => match best with
    | none => some n
    | some m => if s.piecesFree n > s.piecesFree m then some n else best) none

/-- Where a position goes: its default channel, or another where that has none free (R291); on the board the one that holds
the fewest pieces of the allocation unit, `unit`, and of those the one with the most free (R317). -/
def placeChannel (s : State) (dflt : Nat) (spread : Bool) (unit : List Nat) : Option Nat :=
  if (s.freePiece dflt).isSome then some dflt
  else if !spread then none
  else if dflt < 128 then (List.range 128).find? fun n => (s.freePiece n).isSome
  else
    let open_ := ((List.range 12).map (128 + ·)).filter fun n => (s.freePiece n).isSome
    let holds := fun n => (unit.filter fun v => v / 0x1000 == n).length
    s.mostFree (open_.filter fun n => open_.all fun m => decide (holds n ≤ holds m))

end State

/-- One piece of a placement table to fill: index, default channel, whether another channel may serve. -/
abbrev Slot := Nat × Nat × Bool

namespace State

/-- The pieces of allocation unit `u` of a polder: a granule near, three on the board (Table 7-4). -/
def unitSlots (s : State) (p : Polder) (u : Nat) : Option (List Slot) :=
  if p.tier = 1 then some ((List.range 12).map fun i => (u * 12 + i, 128 + i, true))
  else if p.interleave = 0 then
    ((List.range 16).map (16 * p.stack + ·)).find? (fun n => s.takesPieces n && decide (s.piecesFree n ≥ 128))
      |>.map fun n => (List.range 128).map fun j => (u * 128 + j, n, false)
  else if p.interleave = 1 then
    some ((List.range 128).map fun i => (u * 128 + i, 16 * p.stack + i / 8, false))
  else some ((List.range 128).map fun i => (u * 128 + i, 16 * (i % 8) + i / 8, true))

/-- The pieces that the allocation unit of a placement-table index holds so far. -/
def unitPieces (b : Bank Nat) (i : Nat) : List Nat := (b.cells.filter fun c => c.1 / 12 == i / 12).map (·.2)

/-- Fills one piece. -/
def placeSlot (acc : Option (State × Bank Nat)) (x : Slot) : Option (State × Bank Nat) :=
  match acc with
  | none => none
  | some (s, b) =>
    match s.placeChannel x.2.1 x.2.2 (unitPieces b x.1) with
    | none => none
    | some n => (s.freePiece n).map fun j => (s.usePiece n j true, b.set x.1 (n * 0x1000 + j))

/-- Places units `lo` to `hi - 1` of a polder; none where one position cannot be placed (R295). -/
def placeUnits (s : State) (p : Polder) (lo hi : Nat) : Option (State × Bank Nat) :=
  (List.range (hi - lo)).foldl (fun acc i =>
    match acc with
    | none => none
    | some (s, b) => match s.unitSlots p (lo + i) with
      | some xs => xs.foldl placeSlot (some (s, b))
      | none => none) (some (s, p.place))

end State

/-- Allocation units of a size in granules. -/
def unitsOf (tier size : Nat) : Nat := if tier = 1 then size / 3 else size

/-- Placement-table entries of one allocation unit. -/
def unitWidth (tier : Nat) : Nat := if tier = 1 then 12 else 128

/-- The size range of Table 7-3 holds. -/
def sizeOk (tier interleave size : Nat) : Bool :=
  if tier = 1 then decide (3 ≤ size) && decide (size ≤ 336) && size % 3 == 0
  else decide (1 ≤ size) && decide (size ≤ if interleave ≤ 1 then 192 else 1536)

namespace State

/-! ### Scrubbing -/

/-- Writes the unwritten mark over every page of a list of pieces (R162): data, tails, entries, poison marks and valid
bits go. -/
def scrubPieces (s : State) (vs : List Nat) : State :=
  let gone := inPieces vs
  let m := s.mem
  State.writeBitmap { s with mem := { m with
      cells := m.cells.filter fun c => !gone c.1
      pages := m.pages.keep fun k _ => !gone (4096 * k)
      valid := m.valid.keep fun k _ => !gone (4096 * k)
      channels := m.channels.map fun n (c : Channel) =>
        { c with entries := c.entries.filter fun e => !gone (4096 * e.page)
                 poison := c.poison.filter fun q => !gone (if n < 128 then 32 * q else 4096 * q) } } }
    (m.valid.keys.filter fun k => gone (4096 * k))

/-- Returns pieces to the free pool. -/
def freePieces (s : State) (vs : List Nat) : State :=
  vs.foldl (fun s v => s.usePiece (v / 0x1000) (v % 0x1000) false) s

/-- Drops lines of a polder in every slice, written back or not. -/
def dropPolderLines (s : State) (i : Nat) (p : Line → Bool) (write : Bool) : State :=
  s.basin.keys.foldl (fun s n => s.dropLines n (fun l => l.polder == i && p l) write) s

end State

/-! ### Group 0x10 -/

/-- A polder field at byte 16. -/
def polderOf (k : KCmd) : Nat := unitIndex (k.u16 16)

def badPolder (k : KCmd) (off : Nat) : List Nat := badUnit (k.u16 off) off (· == 0x0D)

/-- The index a creation takes: the one named, or the lowest free. -/
def State.newPolder (s : State) (k : KCmd) : Option Nat :=
  if k.u16 16 = 0 then (List.range 256).find? fun i => !s.mem.polders.has i else some (polderOf k)

/-- The polder a creation asks for, not yet placed. -/
def askedPolder (k : KCmd) : Polder :=
  { tier := k.u8 18, interleave := k.u8 19, granule := k.u8 20, strength := k.u8 21, fresh := k.u8 22 == 1, key := k.u8 23,
    size := k.u32 24, stack := k.u8 28 }

def polderCreateCmd : Cmd where
  opcode := 0x1001
  primary := .res
  vf := false
  creates := true
  layout := [(16, 2, 0xFFFF), (18, 1, 0xFF), (19, 1, 0xFF), (20, 1, 0xFF), (21, 1, 0xFF), (22, 1, 0xFF), (23, 1, 0xFF),
    (24, 4, 2 ^ 32 - 1), (28, 1, 0xFF)]
  ref s k := polderUnit ((s.newPolder k).getD 0)
  bad _ k :=
    (if k.u16 16 = 0 then [] else badPolder k 16) ++ badIf (k.u8 18 > 1) 18
      ++ badIf (k.u8 19 > 4 || (k.u8 18 == 1) != (k.u8 19 == 4)) 19
      ++ badIf (k.u8 20 > 2 || (k.u8 19 == 0 && k.u8 20 != 2)) 20 ++ badIf (k.u8 21 > 3) 21 ++ badIf (k.u8 22 > 1) 22
      ++ badIf (k.u8 23 > 63) 23 ++ badIf (!sizeOk (k.u8 18) (k.u8 19) (k.u32 24)) 24
      ++ badIf (if k.u8 19 ≤ 1 then k.u8 28 > 7 else k.u8 28 != 0) 28
  check6 s k :=
    if k.u8 18 = 1 && s.mem.trained.isEmpty then failState 2 0
    else if k.u8 22 = 1 && s.mem.trained.isEmpty then failState 2 0
    else if k.u16 16 != 0 && s.mem.polders.has (polderOf k) then failState 2 1
    else if !s.sealed.slots.has (k.u8 23) then failState 2 0
    else none
  check11 s k :=
    match s.newPolder k with
    | none => some { status := stNoResource }
    | some _ =>
      if (s.placeUnits (askedPolder k) 0 (unitsOf (k.u8 18) (k.u32 24))).isSome then none
      else some { status := stNoResource }
  effect s k :=
    match s.newPolder k, s.placeUnits (askedPolder k) 0 (unitsOf (k.u8 18) (k.u32 24)) with
    | some i, some (s', b) =>
      { state := s'.setPolder i { askedPolder k with place := b }
        result := toLE 2 (polderUnit i) ++ toLE 2 0 ++ toLE 4 (k.u32 24)
        created := some (polderUnit i) }
    | _, _ => { state := s }

def execPolderCreate (k : KCmd) (s : State) : Host.Outcome State Fault Refusal := .next (s.kymal polderCreateCmd k)

/-- Bytes of a caddy's near region: its infused sections, each in whole pages. -/
def Caddy.region (c : Caddy) : Nat := (c.sections.map fun x => (x.infused + 4095) / 4096 * 4096).foldl (· + ·) 0

/-- The polder holds a caddy's near region, from some offset on. -/
def State.holdsRegion (s : State) (i above : Nat) : Bool :=
  s.inf.caddies.any fun _ c => match c.home with
    | some (p, o) => p == i && decide (above < o + c.region)
    | none => false

/-- The polder holds a staged image. -/
def State.holdsImage (s : State) (i : Nat) : Bool := s.inf.caddies.any fun _ c => c.polder == i

/-- An aperture reaches the polder beyond an offset. -/
def State.apertureOn (s : State) (i above : Nat) : Bool :=
  s.xlat.apertures.any fun _ m => m.polder == i && decide (above < m.offset + m.len)

/-- The ring of an open host channel lies in the polder, as its translations show. -/
def State.ringOn (s : State) (i : Nat) : Bool :=
  let held := s.xlat.shared ++ s.xlat.caches.cells.flatMap (·.2) ++ s.xlat.jobs.cells.flatMap (·.2.got)
  s.pumps.chans.any fun _ c => decide (c.kind = .host) && decide (c.base ≥ 2 ^ 47) && held.any fun e =>
    (match e.target with | .polder p _ => p == i | _ => false)
      && (List.range (2 ^ c.log2 * 64 / 4096 + 1)).any fun g => e.covers c.ast (c.base / 4096 + g)

/-- A bound caddy uses the polder as a work or argument polder. -/
def State.boundOn (s : State) (i : Nat) : Bool :=
  s.inf.caddies.any fun _ c => (match c.bound with | some b => b.works.contains i | none => false)
    || (c.state == 4 && c.argument == some i)

def polderFreeCmd : Cmd where
  opcode := 0x1002
  primary := .res
  lease := .excl
  accepted := true
  vf := false
  layout := [(16, 2, 0xFFFF)]
  ref _ k := k.u16 16
  bad _ k := badPolder k 16
  check6 s k := (absent s (k.u16 16)).or
    (let i := polderOf k
     if s.apertureOn i 0 || s.holdsRegion i 0 || s.holdsImage i || s.boundOn i || s.ringOn i then failState 2 2 else none)
  effect s k := { state := s.beginInval (.polder (polderOf k) 0) (.command 0x1002 (k.u16 16)) }
  finish s r _ :=
    if s.invalidating r.ref then none
    else
      let i := unitIndex r.ref
      match s.polder? i with
      | none => some (s, { status := stOk })
      | some p =>
        let vs := p.place.cells.map (·.2)
        let s := (((s.dropPolderLines i (fun _ => true) false).scrubPieces vs).freePieces vs).unmapBar2 i 128
        let s := s.dropLeasesOn r.ref
        some ({ s with mem := { s.mem with polders := s.mem.polders.erase i } }, { status := stOk })

def execPolderFree (k : KCmd) (s : State) : Host.Outcome State Fault Refusal := .next (s.kymal polderFreeCmd k)

/-- BAR2 mappings of granules a shrink removes are revoked (R847, R959). -/
def State.unmapBar2Above (s : State) (polder size : Nat) : State :=
  let drop := fun (m : Bar2Map) =>
    if m.enable && m.polder == polder && decide (m.granule ≥ size) then { m with enable := false, status := 2 } else m
  { s with host := { s.host with fns := s.host.fns.map fun _ (h : HostFn) => { h with bar2 := h.bar2.map fun _ m => drop m } } }

/-- Pieces of a polder at and above an allocation unit. -/
def Polder.piecesAbove (p : Polder) (u : Nat) : List Nat :=
  (p.place.cells.filter fun c => decide (unitWidth p.tier * u ≤ c.1)).map (·.2)

def polderResizeCmd : Cmd where
  opcode := 0x1003
  primary := .res
  lease := .excl
  accepted := true
  vf := false
  layout := [(16, 2, 0xFFFF), (24, 4, 2 ^ 32 - 1)]
  ref _ k := k.u16 16
  bad _ k := badPolder k 16 ++ badIf (k.u32 24 < 1 || k.u32 24 > 1536) 24
  check6 s k := (absent s (k.u16 16)).or
    (match s.polder? (polderOf k) with
     | none => none
     | some p =>
       let cut := k.u32 24 * 0x10000000
       if k.u32 24 < p.size && (s.holdsRegion (polderOf k) cut || s.apertureOn (polderOf k) cut) then failState 2 2
       else if !sizeOk p.tier p.interleave (k.u32 24) then some { status := stBadField, detail := 24 } else none)
  check11 s k :=
    match s.polder? (polderOf k) with
    | none => none
    | some p =>
      if (s.placeUnits p (unitsOf p.tier p.size) (unitsOf p.tier (k.u32 24))).isSome then none
      else some { status := stNoResource }
  effect s k :=
    match s.polder? (polderOf k) with
    | none => { state := s }
    | some p =>
      if k.u32 24 < p.size then
        { state := s.beginInval (.polder (polderOf k) (k.u32 24 * 0x10000000)) (.command 0x1003 (k.u16 16)) }
      else
        match s.placeUnits p (unitsOf p.tier p.size) (unitsOf p.tier (k.u32 24)) with
        | some (s', b) => { state := s'.setPolder (polderOf k) { p with place := b } }
        | none => { state := s }
  finish s r _ :=
    if s.invalidating r.ref then none
    else
      let i := unitIndex r.ref
      let size := r.cmd.u32 24
      match s.polder? i with
      | none => some (s, { status := stOk, result := toLE 4 size })
      | some p =>
        if size < p.size then
          let vs := p.piecesAbove (unitsOf p.tier size)
          let s := s.dropPolderLines i (fun l => inPieces vs (128 * l.tag)) false
          let s := ((s.unmapBar2Above i size).scrubPieces vs).freePieces vs
          let keep := p.place.keep fun j _ => decide (j < unitWidth p.tier * unitsOf p.tier size)
          some (s.setPolder i { p with size := size, place := keep }, { status := stOk, result := toLE 4 size })
        else some (s.setPolder i { p with size := size }, { status := stOk, result := toLE 4 size })

def execPolderResize (k : KCmd) (s : State) : Host.Outcome State Fault Refusal := .next (s.kymal polderResizeCmd k)

/-- The conversion a command asks for, one interrupted before going on from its boundary (R149). -/
def startConversion (p : Polder) (strength key : Nat) (rekey : Bool) : Conversion :=
  match p.conv with
  | some c => if c.newStrength = strength && c.newKey = key && c.rekey == rekey then c
    else { newStrength := strength, newKey := key, rekey := rekey }
  | none => { newStrength := strength, newKey := key, rekey := rekey }

def polderRestrengthCmd : Cmd where
  opcode := 0x1004
  minor := 2
  primary := .res
  lease := .excl
  accepted := true
  layout := [(16, 2, 0xFFFF), (21, 1, 0xFF)]
  ref _ k := k.u16 16
  bad _ k := badPolder k 16 ++ badIf (k.u8 21 > 3) 21
  check6 s k := absent s (k.u16 16)
  effect s k :=
    match s.polder? (polderOf k) with
    | some p => { state := s.setPolder (polderOf k) { p with conv := some (startConversion p (k.u8 21) p.key false) } }
    | none => { state := s }
  finish s r _ :=
    match r.outcome, s.polder? (unitIndex r.ref) with
    | some f, _ => some (s, f)
    | none, some p => if p.conv.isSome then none else some (s, { status := stOk })
    | none, none => some (s, { status := stOk })

def execPolderRestrength (k : KCmd) (s : State) : Host.Outcome State Fault Refusal := .next (s.kymal polderRestrengthCmd k)

/-- A polder whose selected slot is empty (R921), on either side of a boundary. -/
def State.isKeyless (s : State) (p : Polder) : Bool := !s.sealed.slots.has p.key

/-- A keyless polder's merge-buffer entries and lines go (R924). -/
def State.discardKeyless (s : State) (i : Nat) (p : Polder) : State :=
  let vs := p.place.cells.map (·.2)
  let s := { s with mem := { s.mem with channels := s.mem.channels.map fun _ (c : Channel) =>
    { c with entries := c.entries.filter fun e => !inPieces vs (4096 * e.page) } } }
  s.dropPolderLines i (fun _ => true) false

def polderRekeyCmd : Cmd where
  opcode := 0x1005
  primary := .res
  lease := .excl
  accepted := true
  vf := false
  layout := [(16, 2, 0xFFFF), (23, 1, 0xFF)]
  ref _ k := k.u16 16
  bad _ k := badPolder k 16 ++ badIf (k.u8 23 > 63) 23
  check6 s k := (absent s (k.u16 16)).or
    (if !s.sealed.slots.has (k.u8 23) then failState 2 0
     else match s.polder? (polderOf k) with
      | some p => if s.isKeyless p && (s.holdsRegion (polderOf k) 0 || s.holdsImage (polderOf k)) then failState 2 2 else none
      | none => none)
  effect s k :=
    let i := polderOf k
    match s.polder? i with
    | none => { state := s }
    | some p =>
      if s.isKeyless p then
        { state := (s.discardKeyless i p).beginInval (.polder i 0) (.command 0x1005 (k.u16 16)) }
      else { state := s.setPolder i { p with conv := some (startConversion p p.strength (k.u8 23) true) } }
  finish s r _ :=
    match r.outcome, s.polder? (unitIndex r.ref) with
    | some f, _ => some (s, f)
    | none, none => some (s, { status := stOk })
    | none, some p =>
      if p.conv.isSome || s.invalidating r.ref then none
      else if p.key != r.cmd.u8 23 then
        let i := unitIndex r.ref
        some (((s.discardKeyless i p).scrubPieces (p.place.cells.map (·.2))).setPolder i { p with key := r.cmd.u8 23 },
              { status := stOk })
      else some (s, { status := stOk })

def execPolderRekey (k : KCmd) (s : State) : Host.Outcome State Fault Refusal := .next (s.kymal polderRekeyCmd k)

/-- Converts one page: old strength and key in, new out (R412, R957); unwritten, FRESH and uncorrectable pages stay.
Without a key the tail stands as it was (log entry 60). -/
def State.convertOne (s : State) (p : Polder) (c : Conversion) (page : Nat) : State :=
  match chanOf (4096 * page), s.mem.pages.get? page with
  | some n, some g =>
    let sectors := ((g.errs.filter (· < 2048)).map (· / 16)).eraseDups.length
    let s := s.charge p.sluice n (if c.rekey then 9216 else 5120 + 32 * sectors)
    if unwritten g then s
    else if g.errs.length > tOf g.strength then s.noteUncorrectable n (4096 * page) 5 g.strength
    else
      let s := s.noteDecode n page 5 g
      let cipher := s.cipherOf { p with strength := c.newStrength, key := c.newKey, conv := none } page (s.mem.bytes (4096 * page) 4096)
      let g' : Page :=
        { strength := c.newStrength, tail := if s.sealed.slots.has c.newKey then encodeTail c.newStrength cipher else g.tail }
      { s with mem := { s.mem with pages := s.mem.pages.set page g' } }
  | _, _ => s

/-- R403, R404, R411, R412, R428, R956, R957: the page at the boundary is converted and the boundary moves; behind the
last page the new strength or key holds, and a rekey invalidates the polder's translations. -/
def execConversionPage (i : Nat) (s : State) : Host.Outcome State Fault Refusal :=
  .next (match s.polder? i with
    | none => s
    | some p =>
      match p.conv with
      | none => s
      | some c =>
        match p.pageAt c.boundary with
        | some page =>
          if s.memWaits (4096 * page) || !s.runningOn (if c.rekey then 0x1005 else 0x1004) (polderUnit i) then s
          else
            let s := match chanOf (4096 * page) with
              | some n => s.commit n page
              | none => s
            let s := s.convertOne p c page
            let c' := { c with boundary := c.boundary + 1 }
            if (p.pageAt c'.boundary).isSome then s.setPolder i { p with conv := some c' }
            else
              let s := s.setPolder i { p with conv := none, strength := c.newStrength, key := c.newKey }
              if c.rekey then s.beginInval (.polder i 0) (.command 0x1005 (polderUnit i)) else s
        | none => s)

/-- The tier a configured sluice serves. -/
def State.sluice? (s : State) (i : Nat) : Option Sluice := (s.mem.sluices.get? i).filter fun q => q.rate != 0

def polderSetSluiceCmd : Cmd where
  opcode := 0x1006
  primary := .res
  lease := .excl
  layout := [(16, 2, 0xFFFF), (20, 1, 0xFF)]
  ref _ k := k.u16 16
  bad s k := badPolder k 16 ++ badIf (k.u8 20 > 63 && k.u8 20 != 0xFF) 20
    ++ match s.sluice? (k.u8 20), s.polder? (polderOf k) with
      | some q, some p => badIf (q.tier != p.tier) 20
      | _, _ => []
  names _ k := if k.u8 20 = 0xFF then [] else [sluiceRef (k.u8 20)]
  check6 s k := (absent s (k.u16 16)).or
    (if k.u8 20 != 0xFF && (s.sluice? (k.u8 20)).isNone then failState 2 0 else none)
  effect s k :=
    match s.polder? (polderOf k) with
    | none => { state := s }
    | some p =>
      { state := s.setPolder (polderOf k) { p with sluice := if k.u8 20 = 0xFF then none else some (k.u8 20) }
        result := toLE 1 (p.sluice.getD 0xFF) }

def execPolderSetSluice (k : KCmd) (s : State) : Host.Outcome State Fault Refusal := .next (s.kymal polderSetSluiceCmd k)

/-- Sum of the rates of the configured sluices of a tier, one apart (R300). -/
def State.tierRates (s : State) (tier but : Nat) : Nat :=
  s.mem.sluices.total fun i q => if i ≠ but && q.tier = tier then q.rate else 0

def sluiceConfigCmd : Cmd where
  opcode := 0x1007
  primary := .res
  lease := .excl
  vf := false
  layout := [(16, 4, 2 ^ 32 - 1), (20, 1, 0xFF), (24, 4, 2 ^ 32 - 1), (28, 4, 2 ^ 32 - 1)]
  ref _ k := k.u32 16
  bad _ k := badIf (!(refValid (k.u32 16) && refKind (k.u32 16) == 1)) 16 ++ badIf (k.u8 20 > 1) 20
    ++ badIf (k.u32 28 < (10 * k.u32 24 + 1023) / 1024 || k.u32 28 > 65536) 28
  check6 s k :=
    if k.u32 24 = 0 && (s.mem.polders.any fun _ p => p.sluice == some (refId (k.u32 16))) then failState 2 2 else none
  check11 s k :=
    let limit := if k.u8 20 = 0 then 7864320 else 1228800
    if s.tierRates (k.u8 20) (refId (k.u32 16)) + k.u32 24 > limit then some { status := stNoResource } else none
  effect s k :=
    let i := refId (k.u32 16)
    let q := s.mem.sluices.get {} i
    let q' := { q with tier := k.u8 20, rate := k.u32 24, burst := k.u32 28 }
    let all := if k.u32 24 = 0 then s.mem.sluices.erase i else s.mem.sluices.set i q'
    { state := { s with mem := { s.mem with sluices := all } } }

def execSluiceConfig (k : KCmd) (s : State) : Host.Outcome State Fault Refusal := .next (s.kymal sluiceConfigCmd k)

/-! ### Group 0x11 -/

/-- Quarters of a mask whose mode changes. -/
def quartersToSwitch (x : Slice) (mask mode : Nat) : List Nat :=
  (List.range 4).filter fun q => bitOf mask q && (x.isScratch q != (mode == 1))

/-- Zeroes a scratchpad quarter (R351). -/
def State.zeroQuarter (s : State) (n q : Nat) : State :=
  let lo := scratchBase + n * 0xC00000 + q * 0x300000
  let x := s.slice n
  let inside := fun a => decide (lo ≤ a) && decide (a < lo + 0x300000)
  let s := s.setSlice n { x with badWords := x.badWords.filter fun w => !inside (8 * w) }
  { s with mem := { s.mem with cells := s.mem.cells.filter fun c => !inside c.1 } }

/-- Switches quarters of a slice whose lines are gone; a switched quarter is empty (R351). -/
def State.switchQuarters (s : State) (n mask mode : Nat) : State :=
  let qs := quartersToSwitch (s.slice n) mask mode
  let x := s.slice n
  let s := s.setSlice n { x with scratch := qs.foldl (fun m q => setBit m q (mode == 1)) x.scratch, plru := {} }
  qs.foldl (fun s q => s.zeroQuarter n q) s

/-- What BASIN_PARTITION answers: the quarters in cache mode. -/
def State.partitioned (s : State) (n : Nat) : State × Finish :=
  (s, { status := stOk, result := toLE 1 (15 - (s.slice n).scratch) })

def basinPartitionCmd : Cmd where
  opcode := 0x1101
  primary := .res
  lease := .excl
  accepted := true
  vf := false
  layout := [(16, 2, 0xFFFF), (18, 1, 0xF), (19, 1, 0xFF)]
  ref _ k := k.u16 16
  bad _ k := badUnit (k.u16 16) 16 (· == 0x01) ++ badIf (k.u8 19 > 1) 19
  check6 s k :=
    let x := s.slice (unitIndex (k.u16 16))
    if k.u8 19 = 0 && (quartersToSwitch x (k.u8 18) 0).any x.assigned.has then failState 2 2 else none
  effect s k :=
    let n := unitIndex (k.u16 16)
    if (quartersToSwitch (s.slice n) (k.u8 18) (k.u8 19)).isEmpty then { state := s, outcome := some (s.partitioned n).2 }
    else { state := s.dropLines n (fun _ => true) true }
  finish s r _ :=
    let n := unitIndex r.ref
    match r.outcome with
    | some f => some (s, f)
    | none => if s.writingBack n then none else some ((s.switchQuarters n (r.cmd.u8 18) (r.cmd.u8 19)).partitioned n)

/-- R349-R352: every dirty line is written back before the new mode takes effect, with the final reply. -/
def execBasinPartition (k : KCmd) (s : State) : Host.Outcome State Fault Refusal := .next (s.kymal basinPartitionCmd k)

def basinQuotaCmd : Cmd where
  opcode := 0x1102
  primary := .res
  lease := .excl
  vf := false
  layout := [(16, 2, 0xFFFF), (24, 4, 2 ^ 32 - 1)]
  ref _ k := k.u16 16
  bad _ k := badPolder k 16
  check6 s k := absent s (k.u16 16)
  effect s k :=
    match s.polder? (polderOf k) with
    | some p => { state := s.setPolder (polderOf k) { p with quota := k.u32 24 } }
    | none => { state := s }

def execBasinQuota (k : KCmd) (s : State) : Host.Outcome State Fault Refusal := .next (s.kymal basinQuotaCmd k)

/-- One slice's walk for a flush (R347). -/
def State.flushSlice (s : State) (i : Nat) (drop : Bool) (n : Nat) : State :=
  if (s.slice n).cacheQuarters = 0 then s
  else
    let mine := fun (l : Line) => l.polder == i
    let s := if drop then s.dropLines n mine true else s.cleanLines n mine
    let x := s.slice n
    s.setSlice n { x with walks := x.walks + 1 }

/-- Dirty lines of a polder. -/
def State.dirtyLines (s : State) (i : Nat) : Nat :=
  s.basin.total fun _ x => (x.lines.filter fun l => l.polder == i && l.dirty).length

def basinFlushCmd : Cmd where
  opcode := 0x1103
  primary := .res
  lease := .shared
  accepted := true
  sb := false
  layout := [(16, 2, 0xFFFF), (18, 1, 0xFF)]
  ref _ k := k.u16 16
  bad _ k := badPolder k 16 ++ badIf (k.u8 18 > 1) 18
  check6 s k := absent s (k.u16 16)
  effect s k :=
    let i := polderOf k
    { state := (List.range 64).foldl (fun s n => s.flushSlice i (k.u8 18 == 1) n) s
      outcome := some { status := stOk, result := toLE 8 (s.dirtyLines i) } }
  finish s r _ :=
    match r.outcome with
    | some f => if s.heldAny fun w => (s.ownerOf w.dpa).any fun o => o.1 == unitIndex r.ref then none else some (s, f)
    | none => some (s, { status := stOk })

/-- R345, R347, R348: the final reply waits until memory has taken every write-back. -/
def execBasinFlush (k : KCmd) (s : State) : Host.Outcome State Fault Refusal := .next (s.kymal basinFlushCmd k)

end Sys2Proof.Machine
end

