-- ==== Sys2Proof/Machine/Infuser.lean ====
section
/-! DEFINITION. Infuser units: job descriptors, the choice of a unit, running and completing a job, CONTEXT_MOVE
(chapter 12). -/

namespace Sys2Proof.Machine

/-! ### Descriptors (Table 12-8) -/

structure InfDesc where
  dir : Nat
  fmt : Nat
  srcKind : Nat
  dstKind : Nat
  ast : Nat
  src : Nat
  dst : Nat
  len : Nat
  cap : Nat
deriving DecidableEq, Repr

def parseInf (b : Bytes) : InfDesc :=
  { dir := byteAt b 0 % 2, fmt := byteAt b 1, srcKind := byteAt b 2 % 4, dstKind := byteAt b 2 / 4 % 4, ast := fieldAt b 4 2,
    src := fieldAt b 8 8, dst := fieldAt b 16 8, len := fieldAt b 24 8, cap := fieldAt b 32 8 }

/-- The descriptor of a job that the warden issues: kind 2 on both sides. -/
def wardenDesc (dir fmt src dst len cap : Nat) : Bytes :=
  toLE 1 dir ++ toLE 1 fmt ++ toLE 1 10 ++ toLE 5 0 ++ toLE 8 src ++ toLE 8 dst ++ toLE 8 len ++ toLE 8 cap ++ toLE 24 0

/-- The kind 2 address of a polder offset. -/
def polderAddr (i o : Nat) : Nat := i * 2 ^ 48 + o

namespace InfDesc

/-- Reserved bits, a format that is not valid, kind 3, an unaligned destination, or a part of a group (R537, R538). -/
def malformed (d : InfDesc) (b : Bytes) (copy : Bool) : Bool :=
  byteAt b 0 / 2 != 0 || byteAt b 2 / 16 != 0 || byteAt b 3 != 0 || fieldAt b 6 2 != 0 || fieldAt b 48 8 != 0
    || d.srcKind == 3 || d.dstKind == 3 || d.dst % 4096 != 0 || !(fmtValid d.fmt || (copy && d.fmt == 0))
    || badLength d.dir d.fmt d.len

def srcSegs (d : InfDesc) : List Seg := Seg.pages ⟨0, d.src, d.len⟩

/-- Kind 0 pages of the job, source and destination (R532). -/
def needs (d : InfDesc) : List Need :=
  (if d.srcKind = 0 then needsOf 0 0 d.srcSegs else [])
    ++ (if d.dstKind = 0 then needsOf 1 1 (Seg.pages ⟨0, d.dst, (d.cap + 4095) / 4096 * 4096⟩) else [])

end InfDesc

/-- The warden issued the job. -/
def InfJob.isWarden (j : InfJob) : Bool := match j.owner with | .seq _ => false | _ => true

/-- The job copies a section of format 0x00. -/
def InfJob.isCopy (j : InfJob) : Bool := match j.owner with | .infuse _ _ _ => true | _ => false

/-- The completion word (Table 12-9). -/
def infWord (status bytes : Nat) : Nat := 1 + 256 * status + 65536 * (bytes % 2 ^ 40)

namespace State

def infUnit (s : State) (u : Nat) : InfUnit := s.inf.units.get {} u

def setInfUnit (s : State) (u : Nat) (x : InfUnit) : State := { s with inf := { s.inf with units := s.inf.units.set u x } }

def modCaddy (s : State) (slot : Nat) (f : Caddy → Caddy) : State :=
  { s with inf := { s.inf with caddies := s.inf.caddies.modify slot f } }

/-- Units that accept jobs. -/
def infOpen (s : State) : List Nat := (List.range 8).filter fun u => s.inService (infuserUnit u)

/-- The unit a new job goes to: the fewest accepted jobs, lowest index (R529); none while all hold 16 (Table 15-7). -/
def infChoice (s : State) : Option Nat :=
  s.infOpen.foldl (fun (best : Option Nat) u =>
    if (s.infUnit u).jobs.length ≥ 16 then best
    else match best with
      | none => some u
      | some v => if (s.infUnit u).jobs.length < (s.infUnit v).jobs.length then some u else best) none

/-- The place of an address of a job. -/
def infPlace (s : State) (j : InfJob) (kind addr : Nat) : Place :=
  if j.isWarden then
    match s.polder? (addr / 2 ^ 48) with
    | some p => if addr % 2 ^ 48 < p.bytes then .polder (addr / 2 ^ 48) (addr % 2 ^ 48) else .outside
    | none => .outside
  else s.place j.caddy j.job kind addr

/-- A unit accepts a job: kind 0 is translated from here on (R532). -/
def acceptInf (s : State) (u : Nat) (j : InfJob) : State :=
  let d := parseInf j.raw
  let fn := s.caddyFn j.caddy
  let need := d.needs
  let (s, j) :=
    if need.isEmpty then (s, j)
    else if !(match s.space? d.ast with | some x => x.fn == fn | none => false) then (s, { j with status := 0x16 })
    else
      let (s, id) := s.startJob { requester := 2, engine := 40 + u, unit := infuserUnit u, fn := fn, ast := d.ast, need := need }
      (s, { j with job := some id })
  let x := s.infUnit u
  s.setInfUnit u { x with jobs := x.jobs ++ [j] }

/-! ### How a job ends -/

/-- First output chunk of part `part` of a section, and the chunks of a part: at most eight parts (R559). -/
def partChunks (sec : Section) : Nat :=
  if fmtLeaf sec.format then (sec.infused + 2 ^ 26 - 1) / 2 ^ 26 else ((sec.infused + 2 ^ 26 - 1) / 2 ^ 26 + 7) / 8

/-- A part of an infusion has ended: its chunk digests, or the first failure of the infusion (R560-R562). -/
def infusePart (s : State) (slot sec part status bytes : Nat) (out : Bytes) : State :=
  s.modCaddy slot fun c =>
    let first := match c.sections[sec]? with
      | some x => part * partChunks x
      | none => 0
    let chunks := (List.range ((out.length + 2 ^ 26 - 1) / 2 ^ 26)).map fun i =>
      (65536 * sec + first + i, sha384 ((out.drop (2 ^ 26 * i)).take (2 ^ 26)))
    let bad := if status = 0 then none else some (if status = 0x10 then 5 else if status = 0x22 then 0x22 else 0, sec, first)
    { c with waiting := c.waiting.filter (· != (sec, part)), failure := c.failure.or bad, written := c.written + bytes
             digests := chunks.foldl (fun b p => b.set p.1 p.2) c.digests }

/-- Final status of a CONTEXT_MOVE (R570, R571; DESIGN CHOICE, log entry 21 for the causes the spec names no status for). -/
def contextFinish (status bytes : Nat) : Finish :=
  let r := toLE 8 bytes
  if status = 0 then { status := stOk, result := r }
  else if status = 0x20 then { status := stNoResource, result := r }
  else if status = 0x12 then { status := stBadField, detail := 40, result := r }
  else if status = 0x22 then { status := stState, detail := stateDetail 1 2, result := r }
  else { status := stState, detail := stateDetail 2 0, result := r }

/-- A job is over: its issuer learns of it (R535, R548, R549). -/
def reportInf (s : State) (u : Nat) (j : InfJob) (status bytes : Nat) (out : Bytes) : State :=
  match j.owner with
  | .infuse c sec part => s.infusePart c sec part status bytes out
  | .context ref => s.endRunning 0x1408 ref (contextFinish status bytes)
  | .seq tag =>
    let done := ((s.sq tag.seq).ops.find? fun o => o.id == tag.op).bind fun o => o.done.bind (·.trap)
    let trap : Option Trap := if status = 0 then none else some { cause := 8, status := status, unit := infuserUnit u }
    s.reportOp tag { record := toLE 8 (infWord status bytes), trap := done.or trap }

/-- Gives a job to a unit, queues it, or ends it at once when no unit is IN_SERVICE (R529, R531). -/
def giveInf (s : State) (j : InfJob) : State :=
  if s.infOpen.isEmpty then s.reportInf 0 j 0x22 0 []
  else
    match s.infChoice with
    | some u => s.acceptInf u j
    | none => { s with inf := { s.inf with queue := s.inf.queue ++ [j] } }

/-- The oldest waiting job goes to a unit with room. -/
def drainInf (s : State) : State :=
  match s.inf.queue with
  | [] => s
  | j :: rest =>
    if s.infChoice.isSome || s.infOpen.isEmpty then State.giveInf { s with inf := { s.inf with queue := rest } } j else s

/-! ### Running -/

def infRuns (s : State) (u : Nat) : Bool :=
  !s.islandHalted (164 + u) && (match s.unitState (infuserUnit u) with | .inService | .draining => true | _ => false)

def setHead (s : State) (u : Nat) (j : InfJob) : State :=
  let x := s.infUnit u
  s.setInfUnit u { x with jobs := j :: x.jobs.drop 1 }

/-- The first source byte outside what a program owns (R331, R485). -/
def infOutside (s : State) (j : InfJob) (d : InfDesc) : Option Nat :=
  if j.isWarden then none
  else if d.srcKind != 0 && !s.confined j.caddy d.srcKind d.src d.len then some d.src
  else if d.dstKind != 0 && s.confine j.caddy d.dstKind d.dst = .outside then some d.dst
  else none

/-- Reads the source run by run, and counts the bytes before the first that cannot be read. -/
def readInf (s : State) (u : Nat) (j : InfJob) (d : InfDesc) (host : Bytes) : Fetch × Nat :=
  d.srcSegs.foldl (fun (acc : Fetch × Nat) g =>
    let f := match j.isWarden, s.infPlace j d.srcKind g.addr with
      | true, .polder i o =>
        let (s', r) := acc.1.state.polderRead i o g.len false
        ({ acc.1 with state := s', bytes := acc.1.bytes ++ r.bytes, bad := acc.1.bad || r.bad.isSome } : Fetch)
      | true, _ => { acc.1 with bytes := acc.1.bytes ++ List.replicate g.len 0, bad := true }
      | false, _ => State.fetchSeg (infuserUnit u) false j.caddy j.job d.srcKind (s.caddyFn j.caddy) d.ast acc.1 g
    (f, if f.bad then acc.2 else acc.2 + g.len)) ({ state := s, host := host }, 0)

/-- Starts the first job of a unit: its tokens, its translations, its source, its output (R533, R536, R546, R547). -/
def startInf (s : State) (u : Nat) (host : Bytes) : State :=
  match (s.infUnit u).jobs.head? with
  | none => s
  | some j =>
    let d := parseInf j.raw
    let begin_ := fun (s : State) (out : Bytes) (status : Nat) =>
      s.setHead u { j with started := true, out := out, status := status }
    if j.started || !s.infRuns u || (j.isWarden && decide (s.reservedTokens + 40 > s.pool)) then s
    else if j.status != 0 then begin_ s [] j.status
    else if d.malformed j.raw j.isCopy then begin_ s [] 0x12
    else
      match s.infOutside j d with
      | some a =>
        let s := begin_ s [] 0x16
        match j.owner with
        | .seq tag => s.reportOp tag { trap := some { cause := 3, addr := a, unit := infuserUnit u } }
        | _ => s
      | none =>
        let xs := match j.job with
          | none => XStatus.ready
          | some id => s.jobStatus id
        match xs with
        | .failed cause _ _ => begin_ s [] cause
        | .waiting =>
          match j.job.bind fun id => (s.xlat.jobs.get? id).map fun x => (id, x) with
          | some (id, x) => if x.remark then s.restartJob id else s
          | none => s
        | .ready =>
          if d.srcSegs.any fun g => s.placeWaits (s.infPlace j d.srcKind g.addr) g.len then s
          else
            let (f, good) := s.readInf u j d host
            let s := f.state
            let x := s.infUnit u
            let s := s.setInfUnit u { x with inBytes := x.inBytes + (if f.bad then good else d.len) }
            if f.bad then begin_ s (transform d.dir d.fmt (f.bytes.take good)).1 0x10
            else
              let (out, status) := transform d.dir d.fmt f.bytes
              begin_ s out status

/-! ### Completing -/

/-- Whole pages of an output from its start, by destination address. -/
def outPages (dst : Nat) (out : Bytes) : List (Nat × Bytes) :=
  (List.range ((out.length + 4095) / 4096)).map fun i => (dst + 4096 * i, fitBytes 4096 ((out.drop (4096 * i)).take 4096))

/-- Writes one page of a job. -/
def writeInf (s : State) (u : Nat) (j : InfJob) (kind : Nat) (p : Nat × Bytes) : State :=
  match s.infPlace j kind p.1 with
  | .host h _ => s.emit (.hostWrite h p.2)
  | .window n o => (s.windowAccess (infuserUnit u) n o opWrite p.2 p.2.length).1
  | q => s.writePlace q p.2

/-- The first job of a unit ends: its pages are visible and its issuer learns of it (R534, R535, R548). -/
def completeInf (s : State) (u : Nat) : State :=
  match (s.infUnit u).jobs.head? with
  | none => s
  | some j =>
    let d := parseInf j.raw
    if !j.started || !s.infRuns u then s
    else
      let full := decide (j.out.length > d.cap)
      let pages := outPages d.dst (j.out.take d.cap)
      let inside := pages.takeWhile fun p => decide (s.infPlace j d.dstKind p.1 ≠ .outside)
      let status := if j.status != 0 then j.status else if full then 0x20 else if inside.length < pages.length then 0x16 else 0
      if inside.any fun p => s.placeWaits (s.infPlace j d.dstKind p.1) p.2.length then s
      else
        let keep := if status = 0 then inside.length else s.freeNat % (min inside.length (j.out.length / 4096) + 1)
        let s := if status = 0 then s else s.tickFree
        let bytes := if status = 0 then j.out.length else 4096 * keep
        let s := (inside.take keep).foldl (fun s p => s.writeInf u j d.dstKind p) s
        let x := s.infUnit u
        let s := s.setInfUnit u { x with jobs := x.jobs.drop 1, outBytes := x.outBytes + bytes }
        ((s.dropJobs [j.job]).reportInf u j status bytes (j.out.take bytes)).drainInf

/-- The jobs of a unit forced out of service end without completion (R949). -/
def loseInf (s : State) (u : Nat) : State :=
  let x := s.infUnit u
  (s.dropJobs (x.jobs.map (·.job))).setInfUnit u { x with jobs := [] }

end State

/-- R274, R547: `host` is what reads of host memory and of outbound windows answer. -/
def execInfuserJobStart (u : Nat) (host : Option Bytes) (s : State) : Host.Outcome State Fault Refusal :=
  let running := ((s.infUnit u).jobs.head?.map (·.started)).getD false
  .next (if u ≥ 8 || (s.boot.device = .lost && !running) then s else s.drainInf.startInf u (host.getD []))

/-- R534, R535, R548, R549, R560-R562, R570, R571. -/
def execInfuserJobComplete (u : Nat) (s : State) : Host.Outcome State Fault Refusal :=
  .next (if u < 8 then s.completeInf u else s)

/-! ### CONTEXT_MOVE -/

/-- Destination bytes left from an offset. -/
def leftFrom (p : Option Polder) (o : Nat) : Nat := match p with | some q => q.bytes - o | none => 0

def contextMoveCmd : Cmd where
  opcode := 0x1408
  minor := 1
  primary := .res
  lease := .excl
  accepted := true
  sb := false
  inU := false
  layout := [(16, 1, 0xFF), (17, 1, 0xFF), (18, 2, 0xFFFF), (20, 2, 0xFFFF), (24, 8, all8), (32, 8, all8), (40, 8, all8)]
  ref _ k := k.u16 20
  bad _ k := badIf (k.u8 16 > 1) 16 ++ badIf (!fmtValid (k.u8 17)) 17 ++ badPolder k 18 ++ badPolder k 20
    ++ badIf (k.u64 24 % 64 != 0) 24 ++ badIf (k.u64 32 % 4096 != 0) 32
  names _ k := [k.u16 18]
  check6 s k := (absent s (k.u16 20)).or (absent s (k.u16 18))
  check11 s k :=
    if k.u8 16 = 0 && decide (leftFrom (s.polder? (unitIndex (k.u16 20))) (k.u64 32) < largestPacked (k.u8 17) (k.u64 40)) then
      some { status := stNoResource } else none
  effect s k :=
    let dst := unitIndex (k.u16 20)
    let raw := wardenDesc (k.u8 16) (k.u8 17) (polderAddr (unitIndex (k.u16 18)) (k.u64 24)) (polderAddr dst (k.u64 32)) (k.u64 40)
      (leftFrom (s.polder? dst) (k.u64 32))
    if s.infOpen.isEmpty then { state := s, outcome := some (State.contextFinish 0x22 0) }
    else { state := s.giveInf { raw := raw, owner := .context (k.u16 20) } }

def execContextMove (k : KCmd) (s : State) : Host.Outcome State Fault Refusal := .next (s.kymal contextMoveCmd k)

end Sys2Proof.Machine
end

