-- ==== Sys2Proof/Machine/Streams.lean ====
section
/-! DEFINITION. The binding table of cluster stream units, and Kymal group 0x15 (chapters 04, 16). -/

namespace Sys2Proof.Machine

namespace State

/-- A STRM operation of a sequencer on a stream unit ends with the blocks moved so far (R717, chapter 15 on H4). -/
def endStream (s : State) (q c unit dir : Nat) : State :=
  let mine := fun (o : SeqOp) => match o.work with
    | .send c' u _ _ _ => dir == 0 && c' == c && u == unit
    | .recv c' u _ _ => dir == 1 && c' == c && u == unit
    | _ => false
  s.modSq q fun x => { x with ops := x.ops.map fun (o : SeqOp) => if mine o && o.done.isNone then { o with done := some {} } else o }

/-- What a stream's endpoint does when it loses its stream unit (R506, R618, R717). -/
def streamEnds (s : State) (c unit dir : Nat) (e : Endpoint) : State :=
  match e with
  | .pump k => s.streamLost k dir
  | .gather l => s.gatherLost l
  | .seq q => s.endStream q c unit dir

/-- Removes an entry of the binding table: groups not yet sent stay unsent (R721), groups received and not taken are
discarded and credited back (DEDUCED, log entry 23), and the endpoint's operation ends. -/
def unbindEntry (s : State) (c unit dir : Nat) : State :=
  match s.endpointOf c unit dir with
  | none => s
  | some e =>
    let p := s.port c
    let left := if dir = 1 then (p.inbox.get [] unit).length else 0
    let p := { p with
      bindings := p.bindings.erase (2 * unit + dir)
      txq := if dir = 0 then p.txq.filter fun g => !(g.type == grpStream && g.unit == unit) else p.txq
      inbox := if dir = 1 then p.inbox.erase unit else p.inbox
      discarded := p.discarded + left }
    ((s.setPort c p).freeGroups c unit left).streamEnds c unit dir e

/-- Removes the entry of an endpoint in a direction, if it has one. -/
def unbindEndpoint (s : State) (e : Endpoint) (dir : Nat) : State :=
  match s.boundTo e dir with
  | some (c, u) => s.unbindEntry c u dir
  | none => s

/-- Sets an entry, after the endpoint's and the stream unit's earlier ones are removed (R720). -/
def bindEntry (s : State) (c unit dir : Nat) (e : Endpoint) : State :=
  let s := (s.unbindEndpoint e dir).unbindEntry c unit dir
  let p := s.port c
  s.setPort c { p with bindings := p.bindings.set (2 * unit + dir) e }

/-- Removes every entry of a cluster (Table 22-2). -/
def unbindCluster (s : State) (c : Nat) : State :=
  (List.range 16).foldl (fun s k => s.unbindEntry c (k / 2) (k % 2)) s

end State

/-- The endpoint a CLUSTER_BIND names: byte 22 is the channel or the lane (R582). -/
def endpointAsked (k : KCmd) : Endpoint :=
  let i := unitIndex (k.u16 20)
  match unitClass (k.u16 20) with
  | 0x08 => .pump (16 * i + k.u8 22)
  | 0x0A => .gather (64 * i + k.u8 22)
  | _ => .seq i

/-- Byte 22 is checked where the endpoint is a pump or a gather engine; Table 4-13 gives it no use where it is a sequencer, and it
is then ignored (DESIGN CHOICE, log entry 76). -/
def clusterBindCmd : Cmd where
  opcode := 0x1501
  primary := .res
  lease := .excl
  sb := false
  layout := [(16, 2, 0xFFFF), (18, 1, 0xFF), (19, 1, 0xFF), (20, 2, 0xFFFF), (22, 1, 0xFF)]
  ref _ k := k.u16 16
  bad _ k := badUnit (k.u16 16) 16 (· == 0x06) ++ badIf (k.u8 18 > 7) 18
    ++ badIf (k.u8 19 > 1 || (k.u8 19 == 1 && unitClass (k.u16 20) == 0x0A)) 19
    ++ badUnit (k.u16 20) 20 (fun c => c == 0x08 || c == 0x0A || c == 0x0B)
    ++ badIf ((unitClass (k.u16 20) == 0x08 && decide (k.u8 22 > 15)) || (unitClass (k.u16 20) == 0x0A && decide (k.u8 22 > 63))) 22
  names _ k := [k.u16 20]
  check6 s k := needService s (k.u16 16)
  check10 s k :=
    if (s.endpointOf (unitIndex (k.u16 16)) (k.u8 18) (k.u8 19)).isSome || (s.boundTo (endpointAsked k) (k.u8 19)).isSome then
      some { status := stConflict, detail := noHolder } else none
  effect s k := { state := s.bindEntry (unitIndex (k.u16 16)) (k.u8 18) (k.u8 19) (endpointAsked k) }

/-- R582, R720. -/
def execClusterBind (k : KCmd) (s : State) : Host.Outcome State Fault Refusal := .next (s.kymal clusterBindCmd k)

def clusterUnbindCmd : Cmd where
  opcode := 0x1502
  primary := .res
  lease := .excl
  sb := false
  layout := [(16, 2, 0xFFFF), (18, 1, 0xFF)]
  ref _ k := k.u16 16
  bad _ k := badUnit (k.u16 16) 16 (· == 0x06) ++ badIf (k.u8 18 > 7) 18
  check6 s k :=
    let c := unitIndex (k.u16 16)
    if s.clusterRuns c then failState 3 4
    else if (s.endpointOf c (k.u8 18) 0).isNone && (s.endpointOf c (k.u8 18) 1).isNone then failState 2 0 else none
  effect s k :=
    let c := unitIndex (k.u16 16)
    { state := (s.unbindEntry c (k.u8 18) 0).unbindEntry c (k.u8 18) 1 }

/-- R720, R506, R618. -/
def execClusterUnbind (k : KCmd) (s : State) : Host.Outcome State Fault Refusal := .next (s.kymal clusterUnbindCmd k)

end Sys2Proof.Machine
end

