-- ==== Sys2Proof/Machine/Caddies.lean ====
section
/-! DEFINITION. Caddies: the container, staging, infusion, binding, unbinding, eviction (chapters 04, 12, 14). -/

namespace Sys2Proof.Machine

/-! ### The container (Tables 12-5 to 12-7) -/

/-- Fields of a container header. -/
structure Header where
  raw : Bytes
  flags : Nat
  version : Nat
  sections : Nat
  total : Nat
  manOff : Nat
  manLen : Nat
  sigOff : Nat
  sigLen : Nat
  relOff : Nat
  rels : Nat
  patOff : Nat
  pats : Nat
  decOff : Nat
  decLen : Nat

def parseHeader (h : Bytes) : Header :=
  { raw := h, flags := fieldAt h 12 4, version := fieldAt h 16 4, sections := fieldAt h 20 4, total := fieldAt h 24 8,
    manOff := fieldAt h 80 8, manLen := fieldAt h 88 8, sigOff := fieldAt h 96 8, sigLen := fieldAt h 104 4,
    relOff := fieldAt h 108 4, rels := fieldAt h 112 4, patOff := fieldAt h 116 4, pats := fieldAt h 120 4,
    decOff := fieldAt h 124 4, decLen := fieldAt h 128 4 }

/-- Length of a signature block. -/
def sigBytes : Nat := 197

/-- What the header alone must satisfy. -/
def headerOk (h : Header) (len : Nat) : Bool :=
  h.raw.take 8 == [0x4D, 0x4F, 0x4C, 0x59, 0x4F, 0x43, 0x41, 0x44] && fieldAt h.raw 8 2 == 1 && fieldAt h.raw 10 2 == 256
    && decide (h.flags ≤ 1) && decide (1 ≤ h.sections) && decide (h.sections ≤ 64) && h.total == len
    && decide (len ≤ 2 ^ 32) && h.manOff == 256 && decide (256 + h.manLen ≤ len) && decide (80 * h.sections ≤ h.manLen)
    && (if h.flags = 1 then h.sigLen == sigBytes && decide (256 + h.manLen ≤ h.sigOff) && decide (h.sigOff + sigBytes ≤ len)
        else h.sigLen == 0)
    && h.sigOff % 8 == 0 && h.relOff % 8 == 0 && h.patOff % 8 == 0 && h.decOff % 8 == 0
    && decide (h.relOff + 16 * h.rels ≤ h.manLen) && decide (h.patOff + 16 * h.pats ≤ h.manLen)
    && decide (h.decOff + h.decLen ≤ h.manLen) && (h.raw.drop 148).all (· == 0)

def parseSection (m : Bytes) (i : Nat) : Section :=
  let b := (m.drop (80 * i)).take 80
  { type := byteAt b 0, format := byteAt b 1, offset := fieldAt b 8 8, packed := fieldAt b 16 8, infused := fieldAt b 24 8,
    digest := (b.drop 32).take 48 }

/-- A section entry of its own: type, format, reserved bytes, place. -/
def sectionOk (h : Header) (m : Bytes) (i : Nat) : Bool :=
  let x := parseSection m i
  decide (1 ≤ x.type) && decide (x.type ≤ 4) && (fmtValid x.format || x.format == 0) && fieldAt m (80 * i + 2) 6 == 0
    && x.offset % 8 == 0 && decide (256 + h.manLen ≤ x.offset) && decide (x.offset + x.packed ≤ h.total)

/-- Ranges that may not overlap: sections and the signature block. -/
def rangesOf (h : Header) (secs : List Section) : List (Nat × Nat) :=
  (if h.sigLen = 0 then [] else [(h.sigOff, h.sigLen)]) ++ secs.map fun x => (x.offset, x.packed)

def disjointAll : List (Nat × Nat) → Bool
  | [] => true
  | a :: t => (t.all fun b => decide (a.1 + a.2 ≤ b.1) || decide (b.1 + b.2 ≤ a.1) || a.2 == 0 || b.2 == 0) && disjointAll t

/-- A stream binding of a declaration. -/
structure DeclBinding where
  cluster : Nat
  unit : Nat
  dir : Nat
  isSeq : Bool
  slot : Nat

/-- A resource declaration. -/
structure Decl where
  clusters : Nat
  seqs : Nat
  chans : Nat
  quarters : Nat
  envelope : Nat
  works : List Bytes
  argument : Bool
  bindings : List DeclBinding

def parseDecl (b : Bytes) : Decl :=
  { clusters := fieldAt b 0 2, seqs := fieldAt b 2 2, chans := fieldAt b 4 2, quarters := byteAt b 6, envelope := fieldAt b 8 2
    works := (List.range (byteAt b 10)).map fun i => (b.drop (16 + 16 * i)).take 16
    argument := bitOf (byteAt b 11) 0
    bindings := (List.range (byteAt b 7)).map fun i =>
      let o := 128 + 4 * i
      { cluster := byteAt b o, unit := byteAt b (o + 1), dir := byteAt b (o + 2), isSeq := bitOf (byteAt b (o + 3)) 7,
        slot := byteAt b (o + 3) % 128 } }

/-- A work-polder entry asks for a polder that POLDER_CREATE would make. -/
def workOk (w : Bytes) : Bool :=
  let tier := byteAt w 0
  let il := byteAt w 1
  decide (tier ≤ 1) && decide (il ≤ 4) && (tier == 1) == (il == 4) && decide (byteAt w 2 ≤ 2) && (il != 0 || byteAt w 2 == 2)
    && decide (byteAt w 3 ≤ 3) && decide (byteAt w 4 ≤ 1) && fieldAt w 5 3 == 0 && sizeOk tier il (fieldAt w 8 4)
    && fieldAt w 12 4 == 0

def declOk (b : Bytes) : Bool :=
  let d := parseDecl b
  b.length == 128 + 4 * byteAt b 7 && decide (1 ≤ d.clusters) && decide (d.clusters ≤ 64) && decide (1 ≤ d.seqs)
    && decide (d.seqs ≤ 64) && decide (d.chans ≤ 64) && decide (d.quarters ≤ 32) && decide (byteAt b 7 ≤ 64)
    && decide (1 ≤ d.envelope) && decide (d.envelope ≤ 720) && decide (byteAt b 10 ≤ 7) && decide (byteAt b 11 ≤ 1)
    && fieldAt b 12 4 == 0 && d.works.all workOk
    && d.bindings.all fun x => decide (x.cluster < d.clusters) && decide (x.unit ≤ 7) && decide (x.dir ≤ 1)
        && decide (x.slot < if x.isSeq then d.seqs else d.chans)

/-- A relocation or patch record (Table 12-7). -/
structure Record where
  patch : Bool
  sec : Nat
  /-- Site offset; low bit of a patch, 0 otherwise; width in bits. -/
  site : Nat
  low : Nat
  width : Nat
  kind : Nat
  index : Nat
  shift : Nat
  addend : Nat

def parseRel (b : Bytes) : Record :=
  { patch := false, sec := byteAt b 0, site := fieldAt b 4 4, low := 0, width := 16 * 2 ^ (byteAt b 1), kind := byteAt b 2,
    index := byteAt b 3, shift := 0, addend := fieldAt b 8 8 }

def parsePatch (b : Bytes) : Record :=
  { patch := true, sec := byteAt b 0, site := fieldAt b 4 4, low := byteAt b 1, width := byteAt b 2, kind := byteAt b 3,
    index := byteAt b 8, shift := byteAt b 9, addend := ((signedOf 32 (fieldAt b 12 4)) % (2 ^ 64 : Int)).toNat }

def recordsOf (h : Header) (m : Bytes) : List Record :=
  (List.range h.rels).map (fun i => parseRel ((m.drop (h.relOff + 16 * i)).take 16))
    ++ (List.range h.pats).map fun i => parsePatch ((m.drop (h.patOff + 16 * i)).take 16)

/-- The source of a record exists. -/
def sourceOk (secs : Nat) (d : Decl) (kind index : Nat) : Bool :=
  match kind with
  | 0 => decide (index < secs)
  | 1 => decide (index ≤ d.works.length)
  | 2 => decide (index < d.quarters)
  | 3 => decide (index < d.chans)
  | 4 => decide (index < d.clusters)
  | 5 => decide (index < d.seqs)
  | _ => false

def recordOk (secs : List Section) (d : Decl) (r : Record) : Bool :=
  let room := match secs[r.sec]? with
    | some x => decide (r.site + (if r.patch then 8 else r.width / 8) ≤ x.infused)
    | none => false
  room && sourceOk secs.length d r.kind r.index
    && (if r.patch then r.site % 8 == 0 && decide (1 ≤ r.width) && decide (r.width ≤ 48) && decide (r.low + r.width ≤ 64)
          && decide (r.shift ≤ 63)
        else decide (r.width ≤ 64))

/-- The reserved bytes of patch records. -/
def patchReservedOk (h : Header) (m : Bytes) : Bool :=
  (List.range h.pats).all fun i => fieldAt m (h.patOff + 16 * i + 10) 2 == 0

def declBytes (h : Header) (m : Bytes) : Bytes := (m.drop h.decOff).take h.decLen

/-- The manifest region satisfies Tables 12-5 to 12-7. -/
def manifestOk (h : Header) (m : Bytes) : Bool :=
  let secs := (List.range h.sections).map (parseSection m)
  (List.range h.sections).all (sectionOk h m) && disjointAll (rangesOf h secs) && declOk (declBytes h m)
    && patchReservedOk h m && (recordsOf h m).all (recordOk secs (parseDecl (declBytes h m)))

/-- R553. -/
def manifestHash (h m : Bytes) : Bytes := sha384 (h.take 32 ++ (h.drop 80).take 176 ++ m)

namespace State

/-- Function of a Kymal path, 0 for the sideband. -/
def fnOf (p : Path) : Nat := if p.master = 128 then 0 else p.master

/-- EV_CADDY_DIGEST (Table 12-10), to the function its caddy is assigned to (R204); a staging that fails names no entry. -/
def digestEvent (s : State) (entry : Bool) (slot sec cause chunk fn : Nat) : State :=
  s.raise 0x0901 sevDegraded wardenUnit
    [(14, if entry then slot else 0x3FFF), (2, 0), (8, sec), (8, cause), (16, chunk), (7, fn)] (.ref (caddyRef slot))

/-- EV_CADDY_STATE (R550, Table 12-11), to the function that holds the caddy's exclusive lease. -/
def caddyEvent (s : State) (slot old new : Nat) : State :=
  let fn := s.caddyFn slot
  let f := if fn = 128 then 0 else fn
  s.raise 0x0902 sevInfo wardenUnit [(14, slot), (2, 0), (3, old), (3, new), (7, f)] (.fn f)

/-- Moves a caddy to a state, with its event. -/
def caddyTo (s : State) (slot new : Nat) : State :=
  match s.inf.caddies.get? slot with
  | none => s
  | some c => (s.modCaddy slot fun c => { c with state := new }).caddyEvent slot c.state new

end State

/-! ### Staging -/

/-- The slot a staging takes. -/
def State.stageSlot (s : State) (k : KCmd) : Option Nat :=
  if k.u16 16 = 0xFFFF then
    (List.range 16384).find? fun i => !s.inf.caddies.has i && !s.inTransition (caddyRef i)
  else some (k.u16 16)

/-- The signature block: four reserved bytes, a public key, r and s (Table 12-5). It verifies over the manifest hash (R554). -/
def blockVerifies (sig hash : Bytes) : Bool := ecdsaVerify ((sig.drop 4).take 97) hash (sig.drop 101)

/-- Reads and checks a container: header, manifest and signature block, or the cause of EV_CADDY_DIGEST (R552, R554,
Table 12-10). -/
def State.checkContainer (s : State) (polder off len : Nat) : State × (Nat ⊕ (Header × Bytes × Bytes)) :=
  let (s, a) := s.polderRead polder off 256 false
  if a.bad.isSome then (s, .inl 5)
  else
    let h := parseHeader a.bytes
    if len < 256 || !headerOk h len then (s, .inl 3)
    else
      let (s, b) := s.polderRead polder (off + 256) h.manLen false
      if b.bad.isSome then (s, .inl 5)
      else if !manifestOk h b.bytes then (s, .inl 3)
      else if manifestHash a.bytes b.bytes != (a.bytes.drop 32).take 48 then (s, .inl 1)
      else if h.flags = 0 then (s, .inr (h, b.bytes, []))
      else
        let (s, c) := s.polderRead polder (off + h.sigOff) sigBytes false
        if c.bad.isSome then (s, .inl 5)
        else if !blockVerifies c.bytes (manifestHash a.bytes b.bytes) then (s, .inl 2)
        else (s, .inr (h, b.bytes, c.bytes))

def caddyStageCmd : Cmd where
  opcode := 0x1401
  primary := .res
  accepted := true
  alters := true
  sb := false
  layout := [(16, 2, 0xFFFF), (18, 2, 0xFFFF), (24, 8, all8), (32, 8, all8)]
  ref s k := caddyRef ((s.stageSlot k).getD 0)
  bad s k := badIf (k.u16 16 ≥ 16384 && k.u16 16 != 0xFFFF) 16 ++ badPolder k 18
    ++ match s.polder? (unitIndex (k.u16 18)) with
      | some p => badIf (p.tier != 1) 18 ++ badIf (k.u64 24 > p.bytes) 24
          ++ badIf (k.u64 32 > 2 ^ 32 || k.u64 24 + k.u64 32 > p.bytes) 32
      | none => badIf (k.u64 32 > 2 ^ 32) 32
  names _ k := k.u16 18 :: (if k.u16 16 = 0xFFFF then [] else [caddyRef (k.u16 16)])
  check6 s k := (absent s (k.u16 18)).or
    (match s.inf.caddies.get? (k.u16 16) with
     | some c => failState 3 c.state
     | none => none)
  check11 s k :=
    match s.stageSlot k with
    | none => some { status := stNoResource }
    | some i => if s.leaseRoom (caddyRef i) k.master then none else some { status := stNoResource }
  effect s _ := { state := s }
  finish s r _ :=
    let k := r.cmd
    let slot := refId r.ref
    match s.checkContainer (unitIndex (k.u16 18)) (k.u64 24) (k.u64 32) with
    | (s, .inl cause) => some (s.digestEvent false slot 0xFF cause 0xFFFF (State.fnOf k.path), { status := stDenied })
    | (s, .inr (h, m, sig)) =>
      let c : Caddy :=
        { polder := unitIndex (k.u16 18), offset := k.u64 24, len := k.u64 32, version := h.version, signed := h.flags == 1,
          signer := if h.flags = 1 then sha384 ((sig.drop 4).take 97) else [], hash := manifestHash h.raw m,
          sections := (List.range h.sections).map (parseSection m), manifest := m, header := h.raw }
      let s := { s with inf := { s.inf with caddies := s.inf.caddies.set slot c } }
      let s := (s.grantLease r.ref k.master true).caddyEvent slot 0 1
      some (s, { status := stOk, result := toLE 2 slot ++ toLE 2 0 ++ toLE 4 h.version })

def execCaddyStage (k : KCmd) (s : State) : Host.Outcome State Fault Refusal := .next (s.kymal caddyStageCmd k)

/-! ### Infusion -/

def caddyOf (k : KCmd) : Nat := refId (k.u32 16)

def badCaddyRef (k : KCmd) : List Nat := badIf (!(refValid (k.u32 16) && refKind (k.u32 16) == 2)) 16

/-- The caddy is in one of these states, or answers with the state it is in (Table 12-4). -/
def caddyIn (s : State) (k : KCmd) (states : List Nat) : Option Fail :=
  (absent s (k.u32 16)).or
    (match s.inf.caddies.get? (caddyOf k) with
     | some c => if states.contains c.state then none else failState 3 c.state
     | none => none)

/-- Offset of a section in the near region: whole pages from section to section. -/
def Caddy.sectionOffset (c : Caddy) (i : Nat) : Nat :=
  ((c.sections.take i).map fun x => (x.infused + 4095) / 4096 * 4096).foldl (· + ·) 0

/-- End of the near region. -/
def Caddy.regionEnd (c : Caddy) : Nat :=
  match c.sections.getLast? with
  | some x => c.sectionOffset (c.sections.length - 1) + x.infused
  | none => 0

/-- Another caddy's near region overlaps. -/
def regionMeets (s : State) (slot polder off len : Nat) : Bool :=
  s.inf.caddies.any fun i c => i != slot && (match c.home with
    | some (p, o) => p == polder && decide (o < off + len) && decide (off < o + c.regionEnd)
    | none => false)

/-- The jobs of one section, by part (R559). -/
def sectionJobs (c : Caddy) (slot home off i : Nat) (x : Section) : List (Nat × InfJob) :=
  let whole := fmtLeaf x.format
  let step := State.partChunks x * 2 ^ 26
  let parts := if x.infused = 0 then 0 else if whole then 1 else (x.infused + step - 1) / step
  (List.range parts).map fun p =>
    let lo := p * step
    let srcOf := fun n => if x.format = 0 then n else n / workGroup x.format * packedGroup x.format
    let src := if whole then 0 else srcOf lo
    let len := if whole || p + 1 = parts then x.packed - src else srcOf step
    let cap := if whole then x.infused else min step (x.infused - lo)
    (p, { raw := wardenDesc 1 x.format (polderAddr c.polder (c.offset + x.offset + src))
            (polderAddr home (off + c.sectionOffset i + lo)) len cap
          owner := .infuse slot i p })

/-- Every job of an infusion: section, part, job. -/
def infusionJobs (c : Caddy) (slot home off : Nat) : List (Nat × Nat × InfJob) :=
  (c.sections.zipIdx).flatMap fun x => (sectionJobs c slot home off x.2 x.1).map fun j => (x.2, j.1, j.2)

/-! ### Records (R563-R566) -/

/-- Value of a record's source, once bound. -/
def sourceValue (c : Caddy) (kind index : Nat) : Nat :=
  let (p, o) := c.home.getD (0, 0)
  let at_ := fun (l : List Nat) (i : Nat) => (l[i]?).getD 0
  let b := c.bound.getD ⟨[], [], [], [], [], 0⟩
  match kind with
  | 0 => polderAddr p (o + c.sectionOffset index)
  | 1 => if index = 0 then polderAddr p o else polderAddr (at_ b.works (index - 1)) 0
  | 2 => scratchBase + at_ b.quarters index / 4 * 0xC00000 + at_ b.quarters index % 4 * 0x300000
  | 3 => at_ b.chans index
  | 4 => at_ b.clusters index
  | _ => at_ b.seqs index

/-- Applied at infusion, not at bind. -/
def Record.early (r : Record) : Bool := r.kind == 0 || (r.kind == 1 && r.index == 0)

/-- Applies one record at its site; none where its value does not fit (R564, R565). -/
def State.applyRecord (s : State) (c : Caddy) (r : Record) : Option State :=
  let v := (sourceValue c r.kind r.index + r.addend) % 2 ^ 64 / 2 ^ r.shift
  let (p, o) := c.home.getD (0, 0)
  let site := o + c.sectionOffset r.sec + r.site
  if v ≥ 2 ^ r.width then none
  else if r.patch then
    let (s, old) := s.polderRead p site 8 false
    let w := leNat old.bytes
    let w' := w - bitsOf w r.low r.width * 2 ^ r.low + v * 2 ^ r.low
    some (s.polderWrite p site (toLE 8 w'))
  else some (s.polderWrite p site (toLE (r.width / 8) v))

/-- Applies records in order up to the first that does not fit; whether all did. -/
def State.applyRecords (s : State) (c : Caddy) : List Record → State × Bool
  | [] => (s, true)
  | r :: t =>
    match s.applyRecord c r with
    | some s => s.applyRecords c t
    | none => (s, false)

def Caddy.records (c : Caddy) : List Record := recordsOf (parseHeader c.header) c.manifest
def Caddy.decl (c : Caddy) : Decl := parseDecl (declBytes (parseHeader c.header) c.manifest)

/-- An infusion fails: the event, the region released, STAGED (R169, R561, R562, R565). -/
def State.failInfusion (s : State) (slot sec cause chunk fn : Nat) : State :=
  (s.digestEvent true slot sec cause chunk fn).modCaddy slot fun c =>
    { c with home := none, waiting := [], failure := none, digests := {}, written := 0 }

/-- The first section whose digest differs (R560, R561). -/
def Caddy.badSection (c : Caddy) : Option Nat :=
  (List.range c.sections.length).find? fun i =>
    match c.sections[i]? with
    | none => false
    | some x =>
      let n := (x.infused + 2 ^ 26 - 1) / 2 ^ 26
      sha384 ((List.range n).flatMap fun j => c.digests.get [] (65536 * i + j)) != x.digest

/-- Every part has ended: digests, records, RESIDENT (R560-R565). -/
def State.concludeInfusion (s : State) (slot fn : Nat) (c : Caddy) : State × Finish :=
  match c.failure with
  | some (cause, sec, chunk) =>
    if cause = 0x22 then
      (s.modCaddy slot fun c => { c with home := none, waiting := [], failure := none, digests := {}, written := 0 },
       { status := stState, detail := stateDetail 1 2 })
    else (s.failInfusion slot sec cause chunk fn, { status := stDenied })
  | none =>
    match c.badSection with
    | some i =>
      let n := match c.sections[i]? with | some x => max 1 ((x.infused + 2 ^ 26 - 1) / 2 ^ 26) | none => 1
      (s.tickFree.failInfusion slot i 0 (s.freeNat % n) fn, { status := stDenied })
    | none =>
      let (s, ok) := s.applyRecords c (c.records.filter Record.early)
      if !ok then (s.failInfusion slot 0xFF 4 0xFFFF fn, { status := stDenied })
      else
        let s := s.modCaddy slot fun c => { c with digests := {}, waiting := [] }
        (s.caddyTo slot 2, { status := stOk, result := toLE 8 c.written })

def caddyInfuseCmd : Cmd where
  opcode := 0x1402
  primary := .res
  lease := .excl
  accepted := true
  sb := false
  inU := false
  layout := [(16, 4, 2 ^ 32 - 1), (20, 2, 0xFFFF), (24, 8, all8)]
  ref _ k := k.u32 16
  bad s k := badCaddyRef k ++ badPolder k 20 ++ badIf (k.u64 24 % 4096 != 0) 24
    ++ match s.polder? (unitIndex (k.u16 20)) with
      | some p => badIf (p.tier != 0) 20
      | none => []
  names _ k := [k.u16 20]
  check6 s k := (caddyIn s k [1]).or (absent s (k.u16 20))
  check10 s k :=
    match s.inf.caddies.get? (caddyOf k) with
    | some c => if regionMeets s (caddyOf k) (unitIndex (k.u16 20)) (k.u64 24) c.regionEnd then
        some { status := stConflict, detail := noHolder } else none
    | none => none
  check11 s k :=
    match s.inf.caddies.get? (caddyOf k), s.polder? (unitIndex (k.u16 20)) with
    | some c, some p => if k.u64 24 + c.regionEnd > p.bytes then some { status := stNoResource } else none
    | _, _ => none
  effect s k :=
    let slot := caddyOf k
    match s.inf.caddies.get? slot with
    | none => { state := s }
    | some c =>
      let (s, a) := s.polderRead c.polder c.offset 256 false
      let (s, b) := s.polderRead c.polder (c.offset + 256) c.manifest.length false
      let cause := if a.bad.isSome || b.bad.isSome then some 5
        else if manifestHash a.bytes b.bytes != c.hash then some 1 else none
      match cause with
      | some cause => { state := s.failInfusion slot 0xFF cause 0xFFFF (State.fnOf k.path), outcome := some { status := stDenied } }
      | none =>
        if s.infOpen.isEmpty then { state := s, outcome := some { status := stState, detail := stateDetail 1 2 } }
        else
          let jobs := infusionJobs c slot (unitIndex (k.u16 20)) (k.u64 24)
          let s := s.modCaddy slot fun c =>
            { c with home := some (unitIndex (k.u16 20), k.u64 24), waiting := jobs.map fun j => (j.1, j.2.1),
                     failure := none, digests := {}, written := 0 }
          { state := jobs.foldl (fun s j => s.giveInf j.2.2) s }
  finish s r _ :=
    match r.outcome, s.inf.caddies.get? (refId r.ref) with
    | some f, _ => some (s, f)
    | none, some c => if c.waiting.isEmpty then some (s.concludeInfusion (refId r.ref) (State.fnOf r.cmd.path) c) else none
    | none, none => some (s, { status := stInternal })

def execCaddyInfuse (k : KCmd) (s : State) : Host.Outcome State Fault Refusal := .next (s.kymal caddyInfuseCmd k)

/-! ### Sequencer code (Table 14-5) -/

/-- The first section of a type. -/
def Caddy.firstSection (c : Caddy) (type : Nat) : Option Nat := (List.range c.sections.length).find? fun i =>
  match c.sections[i]? with
  | some x => x.type == type
  | none => false

/-- Polder and offset of a section's infused bytes. -/
def Caddy.sectionAt (c : Caddy) (i : Nat) : Nat × Nat :=
  let (p, o) := c.home.getD (0, 0)
  (p, o + c.sectionOffset i)

def Caddy.infusedOf (c : Caddy) (i : Nat) : Nat := match c.sections[i]? with | some x => x.infused | none => 0

/-- Offset and length of an image. -/
def imageOf (h : Bytes) (i : Nat) : Nat × Nat := (fieldAt h (8 + 16 * i) 4, fieldAt h (12 + 16 * i) 4)

/-- The image of rank `r`. -/
def rankImage (h : Bytes) (r : Nat) : Nat := byteAt h (1032 + r)

def entryCount (h : Bytes) : Nat := fieldAt h 2 2

/-- Start instruction, debug flag, slot length of an entry. -/
def entryAt (h : Bytes) (e : Nat) : Nat × Bool × Nat :=
  (fieldAt h (1096 + 8 * e) 2, bitOf (byteAt h (1098 + 8 * e)) 0, fieldAt h (1100 + 8 * e) 4)

/-- The limits of Table 14-5, and R629: a rank at or beyond the declared count names no image, its byte zero (log
entry 22). An entry's start lies below the length of every declared rank's image. -/
def codeHeaderOk (h : Bytes) (len seqs : Nat) : Bool :=
  let images := fieldAt h 0 2
  decide (4096 ≤ len) && decide (1 ≤ images) && decide (images ≤ 64) && decide (1 ≤ entryCount h) && decide (entryCount h ≤ 256)
    && fieldAt h 4 4 == 0
    && (List.range images).all (fun i =>
      let (o, n) := imageOf h i
      o % 4096 == 0 && decide (4096 ≤ o) && n % 8 == 0 && decide (8 ≤ n) && decide (n ≤ 65536) && decide (o + n ≤ len)
        && fieldAt h (16 + 16 * i) 8 == 0)
    && (List.range 64).all (fun r => if r < seqs then decide (rankImage h r < images) else rankImage h r == 0)
    && (List.range (entryCount h)).all (fun e =>
      let (start, _, slot) := entryAt h e
      (List.range seqs).all (fun r => decide (start < (imageOf h (rankImage h r)).2 / 8))
        && byteAt h (1098 + 8 * e) / 2 == 0 && byteAt h (1099 + 8 * e) == 0 && decide (16 ≤ slot) && decide (slot ≤ 2 ^ 24))
    && (h.drop 3144).all (· == 0)

/-- The header of a resident caddy's sequencer code, where it has one that can be read. -/
def State.codeHeader (s : State) (c : Caddy) : Option Bytes :=
  match c.firstSection 1 with
  | none => none
  | some i =>
    let (p, o) := c.sectionAt i
    let r := (s.polderRead p o 4096 false).2
    if r.bad.isSome then none else some r.bytes

/-- The instruction store that an image fills: its words, the rest zero (R628). -/
def storeOf (image : Bytes) : Bank (BitVec 64) :=
  ⟨((List.range (image.length / 8)).map fun i => (i, BitVec.ofNat 64 (fieldAt image (8 * i) 8))).filter fun w => w.2 != 0⟩

/-! ### Binding (R566-R568) -/

/-- First cluster index, cluster count, sequencers of a CADDY_BIND. -/
def bindFirst (k : KCmd) : Nat := unitIndex (k.u16 20)
def bindSeqs (k : KCmd) : List Nat := (List.range 64).filter fun i => bitOf (k.u64 24) i
def bindClusters (k : KCmd) : List Nat := (List.range (k.u8 22)).map (bindFirst k + ·)

/-- A work polder as its declaration entry asks, on a stack where it needs one. -/
def workPolder (w : Bytes) (key stack : Nat) : Polder :=
  { tier := byteAt w 0, interleave := byteAt w 1, granule := byteAt w 2, strength := byteAt w 3, fresh := byteAt w 4 == 1,
    key := key, size := fieldAt w 8 4, stack := stack }

/-- Creates one work polder: the lowest free index, and for STACK and CHAN16 the lowest stack that holds it; assigned
to the caddy's function, the binder holding its exclusive lease (R143, R144, R566). -/
def State.makeWork (s : State) (fn binder key : Nat) (w : Bytes) : Option (State × Nat) :=
  let nearStacks := if byteAt w 1 ≤ 1 then List.range 8 else [0]
  let units := unitsOf (byteAt w 0) (fieldAt w 8 4)
  match (List.range 256).find? fun i => !s.mem.polders.has i with
  | none => none
  | some i =>
    let ref := polderUnit i
    if !s.leaseRoom ref binder || decide (s.kym.genCount.get 1 ref ≥ State.genLimit)
        || (byteAt w 4 == 1 && s.mem.trained.isEmpty) then none
    else
      (nearStacks.findSome? fun st => s.placeUnits (workPolder w key st) 0 units |>.map fun r => (st, r)).map fun r =>
        let s := r.2.1.setPolder i { workPolder w key r.1 with place := r.2.2 }
        let s := { s with kym := { s.kym with assign := if fn = 0 then s.kym.assign.erase ref else s.kym.assign.set ref fn } }
        ((s.grantLease ref binder true).bumpGen ref, i)

def State.makeWorks (s : State) (fn binder key : Nat) (ws : List Bytes) : Option (State × List Nat) :=
  ws.foldl (fun acc w => match acc with
    | none => none
    | some (s, is) => (s.makeWork fn binder key w).map fun r => (r.1, is ++ [r.2])) (some (s, []))

/-- Unassigned scratchpad-mode quarters, lowest first. -/
def State.freeQuarters (s : State) : List Nat := (List.range 256).filter fun q =>
  (s.slice (q / 4)).isScratch (q % 4) && !(s.slice (q / 4)).assigned.has (q % 4)

/-- Closed channels of engines that are IN_SERVICE, lowest first (R481). -/
def State.freeChannels (s : State) : List Nat := (List.range 512).filter fun c =>
  decide ((s.pchan c).kind = .closed) && s.inService (pumpUnit (c / 16))

def State.assignQuarter (s : State) (slot q : Nat) : State :=
  let x := s.slice (q / 4)
  s.setSlice (q / 4) { x with assigned := x.assigned.set (q % 4) slot }

/-- What a bind takes: the state that holds it, and its list; none where granules or quarters are too few. -/
def State.planBind (s : State) (k : KCmd) (slot : Nat) (c : Caddy) : Option (State × Binding) :=
  let d := c.decl
  let key := match c.home.bind fun h => s.polder? h.1 with | some p => p.key | none => 0
  let quarters := s.freeQuarters.take d.quarters
  let chans := s.freeChannels.take d.chans
  if quarters.length < d.quarters || chans.length < d.chans then none
  else
    (s.makeWorks (s.caddyFn slot) k.master key d.works).map fun r =>
      let s := quarters.foldl (fun s q => s.assignQuarter slot q) r.1
      let s := chans.foldl (fun s c => s.setPchan c { kind := .program slot }) s
      (s, ⟨bindClusters k, bindSeqs k, chans, quarters, r.2, k.master⟩)

/-- Loads the sequencers by rank (R627, R628); none where an image cannot be read. -/
def State.loadSeqs (s : State) (slot : Nat) (c : Caddy) (seqs : List Nat) : Option State :=
  match c.firstSection 1, s.codeHeader c with
  | none, _ => some (seqs.zipIdx.foldl (fun s q => s.setSq q.1 { caddy := some slot, rank := q.2 }) s)
  | some _, none => none
  | some i, some h =>
    seqs.zipIdx.foldl (fun acc q => match acc with
      | none => none
      | some s =>
        let (p, o) := c.sectionAt i
        let (off, len) := imageOf h (rankImage h q.2)
        let (s, r) := s.polderRead p (o + off) len false
        if r.bad.isSome then none
        else some (s.setSq q.1 { caddy := some slot, rank := q.2, store := storeOf r.bytes })) (some s)

/-- The work polders a bind would create may be created: their generations are not at their limit (R1023), and there is
room for their leases (R101). -/
def workRoom (s : State) (n : Nat) : Bool :=
  let refs := (((List.range 256).filter fun i => !s.mem.polders.has i).take n).map polderUnit
  refs.all (fun r => decide (s.kym.genCount.get 1 r < State.genLimit)) && decide (n = 0 ∨ s.kym.leases.length + s.leasesToCome + n ≤ 32768)

/-- The declared stream bindings (R566). -/
def State.bindStreams (s : State) (d : Decl) (b : Binding) : State :=
  d.bindings.foldl (fun s x =>
    let e : Endpoint := if x.isSeq then .seq ((b.seqs[x.slot]?).getD 0) else .pump ((b.chans[x.slot]?).getD 0)
    s.bindEntry ((b.clusters[x.cluster]?).getD 0) x.unit x.dir e) s

/-- A cluster or a sequencer is bound to a caddy. -/
def State.bindTaken (s : State) (k : KCmd) : Bool :=
  ((bindClusters k).any fun c => (s.port c).caddy.isSome) || (bindSeqs k).any fun q => (s.sq q).caddy.isSome

/-- Everything CADDY_BIND does once judged (R566, R567, R628). -/
def State.bindCaddy (s : State) (k : KCmd) (slot : Nat) (c : Caddy) : State × Finish :=
  let late := c.records.filter fun r => !r.early
  match s.planBind k slot c with
  | none => (s, { status := stNoResource })
  | some (s', b) =>
    let c' := { c with bound := some b }
    let (s1, ok) := s'.applyRecords c' late
    let undone := (s.applyRecords c' late).1
    if !ok then (undone.digestEvent true slot 0xFF 4 0xFFFF (State.fnOf k.path), { status := stDenied })
    else
      match s1.loadSeqs slot c b.seqs with
      | none => (undone, { status := stState, detail := stateDetail 2 0 })
      | some s =>
        let s := s.bindStreams c.decl b
        let s := b.clusters.zipIdx.foldl (fun s x => s.setPort x.1 { s.port x.1 with caddy := some slot, slot := x.2 }) s
        ((s.modCaddy slot fun c => { c with bound := some b }).caddyTo slot 3, { status := stOk })

def caddyBindCmd : Cmd where
  opcode := 0x1403
  primary := .res
  lease := .excl
  accepted := true
  sb := false
  inU := false
  layout := [(16, 4, 2 ^ 32 - 1), (20, 2, 0xFFFF), (22, 1, 0xFF), (24, 8, all8)]
  ref _ k := k.u32 16
  bad s k := badCaddyRef k ++ badUnit (k.u16 20) 20 (· == 0x06)
    ++ badIf (k.u8 22 < 1 || k.u8 22 > 64 || bindFirst k + k.u8 22 > 256) 22
    ++ match s.inf.caddies.get? (caddyOf k) with
      | none => []
      | some c =>
        let d := c.decl
        let code := c.home.isSome && (c.firstSection 1).isSome
        let badCode := match c.firstSection 1, s.codeHeader c with
          | some i, some h => !codeHeaderOk h (c.infusedOf i) d.seqs
          | _, _ => false
        badIf (k.u8 22 != d.clusters) 22 ++ badIf ((bindSeqs k).length != d.seqs) 24
          ++ badIf (code && badCode) 16
          ++ badIf (match c.firstSection 2 with | some i => decide (c.infusedOf i > 2 ^ 24) | none => false) 16
  names _ k := (bindClusters k).map clusterUnit ++ (bindSeqs k).map seqUnit
  check6 s k := caddyIn s k [2]
  check10 s k :=
    let few := match s.inf.caddies.get? (caddyOf k) with
      | some c => decide (s.freeChannels.length < c.decl.chans)
      | none => false
    if few || s.bindTaken k then some { status := stConflict, detail := noHolder } else none
  check11 s k :=
    match s.inf.caddies.get? (caddyOf k) with
    | some c => if workRoom s c.decl.works.length then none else some { status := stNoResource }
    | none => none
  effect s k :=
    match s.inf.caddies.get? (caddyOf k) with
    | none => { state := s }
    | some c =>
      let (s, f) := s.bindCaddy k (caddyOf k) c
      { state := s, outcome := some f }

/-- R481, R566-R568, R627-R629, R731. -/
def execCaddyBind (k : KCmd) (s : State) : Host.Outcome State Fault Refusal := .next (s.kymal caddyBindCmd k)

/-! ### Unbinding and eviction -/

/-- Frees a work polder: translations, apertures, BAR2 mappings, lines, granules, leases and its assignment
(R162, R163). -/
def State.freeWork (s : State) (i : Nat) : State :=
  match s.polder? i with
  | none => s
  | some p =>
    let vs := p.place.cells.map (·.2)
    let s := s.beginInval (.polder i 0) (.move i 0)
    let s := (((s.dropPolderLines i (fun _ => true) false).scrubPieces vs).freePieces vs).unmapBar2 i 128
    let s := s.dropLeasesOn (polderUnit i)
    { s with mem := { s.mem with polders := s.mem.polders.erase i }
             xlat := { s.xlat with apertures := s.xlat.apertures.keep fun _ m => m.polder != i }
             kym := { s.kym with assign := s.kym.assign.erase (polderUnit i) } }

def State.releaseQuarter (s : State) (q : Nat) : State :=
  let x := s.slice (q / 4)
  s.setSlice (q / 4) { x with assigned := x.assigned.erase (q % 4) }

/-- Releases what CADDY_BIND took (Table 12-4). -/
def State.releaseBinding (s : State) (b : Binding) : State :=
  let ends := b.chans.map Endpoint.pump ++ b.seqs.map Endpoint.seq
  let s := ends.foldl (fun s e => (s.unbindEndpoint e 0).unbindEndpoint e 1) s
  let s := b.chans.foldl State.closeChan s
  let s := b.quarters.foldl State.releaseQuarter s
  let s := b.seqs.foldl (fun s q => s.setSq q {}) s
  let s := b.clusters.foldl (fun s c => s.setPort c { s.port c with caddy := none, slot := 0, grant := none }) s
  b.works.foldl State.freeWork s

def caddyUnbindCmd : Cmd where
  opcode := 0x1404
  primary := .res
  lease := .excl
  sb := false
  layout := [(16, 4, 2 ^ 32 - 1)]
  ref _ k := k.u32 16
  bad _ k := badCaddyRef k
  check6 s k := caddyIn s k [3]
  effect s k :=
    match (s.inf.caddies.get? (caddyOf k)).bind (·.bound) with
    | none => { state := s }
    | some b =>
      let s := (s.releaseBinding b).modCaddy (caddyOf k) fun c => { c with bound := none, argument := none }
      { state := s.caddyTo (caddyOf k) 2 }

/-- R550, R162, Table 12-4. -/
def execCaddyUnbind (k : KCmd) (s : State) : Host.Outcome State Fault Refusal := .next (s.kymal caddyUnbindCmd k)

def caddyEvictCmd : Cmd where
  opcode := 0x1405
  primary := .res
  lease := .excl
  sb := false
  layout := [(16, 4, 2 ^ 32 - 1), (20, 1, 0xFF)]
  ref _ k := k.u32 16
  bad _ k := badCaddyRef k ++ badIf (k.u8 20 > 1) 20
  check6 s k := caddyIn s k (if k.u8 20 = 0 then [2] else [1, 2])
  effect s k :=
    let slot := caddyOf k
    if k.u8 20 = 0 then
      { state := (s.modCaddy slot fun c => { c with home := none }).caddyTo slot 1 }
    else
      let old := match s.inf.caddies.get? slot with | some c => c.state | none => 0
      let s := (s.caddyEvent slot old 0).dropLeasesOn (caddyRef slot)
      { state := { s with inf := { s.inf with caddies := s.inf.caddies.erase slot } } }

/-- R550, Table 12-4. -/
def execCaddyEvict (k : KCmd) (s : State) : Host.Outcome State Fault Refusal := .next (s.kymal caddyEvictCmd k)

end Sys2Proof.Machine
end

