-- ==== Sys2Proof/Machine/Flags.lean ====
section
/-! DEFINITION. ALU functions and branch conditions of the stream sequencers (Tables 15-3 and 15-4). They set no flag
(R672): a condition is computed from its two operands. -/

namespace Sys2Proof.Machine

/-- ALU functions (Table 15-3); shifts use bits [5:0] of the second operand (R672). -/
def aluFn (fn : Nat) (a b : BitVec 64) : BitVec 64 :=
  let sh := b.toNat % 64
  match fn with
  | 0 => a + b
  | 1 => a - b
  | 2 => a &&& b
  | 3 => a ||| b
  | 4 => a ^^^ b
  | 5 => a <<< sh
  | 6 => a >>> sh
  | 7 => a.sshiftRight sh
  | 8 => if a.slt b then 1 else 0
  | 9 => if a.ult b then 1 else 0
  | 10 => a * b
  | 11 => BitVec.ofNat 64 (a.toNat * b.toNat / 2 ^ 64)
  | 12 => if a.slt b then a else b
  | 13 => if a.slt b then b else a
  | 14 => if a.ult b then a else b
  | _ => if a.ult b then b else a

/-- Branch conditions (Table 15-4). -/
def condHolds (c : Nat) (a b : BitVec 64) : Bool :=
  match c with
  | 0 => a == b
  | 1 => a != b
  | 2 => a.slt b
  | 3 => !a.slt b
  | 4 => a.ult b
  | _ => !a.ult b

/-- sext(v, n) as a register value. -/
def sext (n v : Nat) : BitVec 64 := BitVec.ofInt 64 (signedOf n v)

/-- zext(v, n). -/
def zext (n v : Nat) : BitVec 64 := BitVec.ofNat 64 (v % 2 ^ n)

end Sys2Proof.Machine
end

