-- ==== Sys2Proof/Machine/SeqIsa.lean ====
section
/-! DEFINITION. The instruction word of the stream sequencers: fields, decoding and encoding (R664, R665, Tables 15-1
and 15-2). -/

namespace Sys2Proof.Machine

/-- A sequencer instruction with its operands. `d` of SEL is the register of f[4:0]; `n` of RED counts elements. -/
inductive SInstr where
  | nop
  | jal (a imm : Nat)
  | jalr (a b imm : Nat)
  | br (b c cond imm : Nat)
  | bri (b cond imm off : Nat)
  | sel (a b c d : Nat)
  | fin
  | alu (a b c fn : Nat)
  | alui (a b fn imm : Nat)
  | li (a imm : Nat)
  | lih (a imm : Nat)
  | lds (a b size : Nat) (signed : Bool) (imm : Nat)
  | sts (b c size imm : Nat)
  | ld (a b size : Nat) (signed : Bool) (kind imm : Nat)
  | st (b c size kind imm : Nat)
  | ldPair (a b kind imm : Nat)
  | stPair (b c kind imm : Nat)
  | pref (b kind imm : Nat)
  | pumpIss (a b slot : Nat)
  | gathIss (a b c engine : Nat)
  | infIss (a b : Nat)
  | red (b c type kind : Nat) (ordered : Bool) (n ast : Nat)
  | grant (b : Nat)
  | strmBind (cluster unit dir kind index engine : Nat)
  | strmSend (a b : Nat) (paced : Bool) (cluster unit n : Nat)
  | strmRecv (a b cluster unit n : Nat)
  | fence (mask : Nat)
  | tokAcq (b imm : Nat)
  | tokRel (b imm : Nat)
  | sigPost (b index : Nat) (toCluster : Bool) (counter : Nat)
  | sigWait (j v : Nat)
  | sigRead (a j : Nat)
  | slotWait (b imm : Nat)
  | slotLen (b imm : Nat)
  | slotGet (a : Nat)
  | timeGet (a : Nat)
  | csrRd (a id : Nat)
  | dbgMark (b imm : Nat)
  | dbgStop
deriving DecidableEq, Repr

/-- The fields of Table 15-1. -/
structure Fields where
  op : Nat
  a : Nat
  b : Nat
  c : Nat
  f : Nat
  imm : Nat

def fieldsOf (w : Nat) : Fields :=
  { op := w % 256, a := w / 256 % 32, b := w / 8192 % 32, c := w / 262144 % 32, f := w / 8388608 % 512,
    imm := w / 4294967296 % 4294967296 }

def packFields (x : Fields) : Nat :=
  x.op + 256 * x.a + 8192 * x.b + 262144 * x.c + 8388608 * x.f + 4294967296 * x.imm

/-- Fields not used are zero, f has `fb` bits and imm `ib` bits (R665). -/
def Fields.only (x : Fields) (a b c : Bool) (fb ib : Nat) : Bool :=
  (a || x.a == 0) && (b || x.b == 0) && (c || x.c == 0) && decide (x.f < 2 ^ fb) && decide (x.imm < 2 ^ ib)

/-- The instruction of a word; none for a word that traps with cause 0x01 (R665). -/
def decodeSeq (w : Nat) : Option SInstr :=
  let x := fieldsOf w
  let ok (c : Bool) (i : SInstr) : Option SInstr := if c then some i else none
  let mem := x.f / 8 % 4
  let memOk := mem == 1 || mem == 2
  let bit (v n : Nat) : Bool := v / 2 ^ n % 2 == 1
  match x.op with
  | 0x01 => ok (x.only false false false 0 0) .nop
  | 0x02 => ok (x.only true false false 0 32) (.jal x.a x.imm)
  | 0x03 => ok (x.only true true false 0 32) (.jalr x.a x.b x.imm)
  | 0x04 => ok (x.only false true true 3 32 && decide (x.f ≤ 5)) (.br x.b x.c x.f x.imm)
  | 0x05 => ok (x.only false true false 3 32 && decide (x.f ≤ 5)) (.bri x.b x.f (x.imm / 65536) (x.imm % 65536))
  | 0x06 => ok (x.only true true true 5 0) (.sel x.a x.b x.c x.f)
  | 0x07 => ok (x.only false false false 0 0) .fin
  | 0x10 => ok (x.only true true true 4 0) (.alu x.a x.b x.c x.f)
  | 0x11 => ok (x.only true true false 4 32) (.alui x.a x.b x.f x.imm)
  | 0x12 => ok (x.only true false false 0 32) (.li x.a x.imm)
  | 0x13 => ok (x.only true false false 0 32) (.lih x.a x.imm)
  | 0x18 => ok (x.only true true false 3 32) (.lds x.a x.b (x.f % 4) (bit x.f 2) x.imm)
  | 0x19 => ok (x.only false true true 2 32) (.sts x.b x.c x.f x.imm)
  | 0x20 => ok (x.only true true false 5 32 && memOk) (.ld x.a x.b (x.f % 4) (bit x.f 2) mem x.imm)
  | 0x21 => ok (x.only false true true 5 32 && memOk && !bit x.f 2) (.st x.b x.c (x.f % 4) mem x.imm)
  | 0x22 => ok (x.only true true false 5 32 && memOk && x.f % 8 == 0 && x.a % 2 == 0) (.ldPair x.a x.b mem x.imm)
  | 0x23 => ok (x.only false true true 5 32 && memOk && x.f % 8 == 0 && x.c % 2 == 0) (.stPair x.b x.c mem x.imm)
  | 0x24 => ok (x.only false true false 5 32 && memOk && x.f % 8 == 0) (.pref x.b mem x.imm)
  | 0x30 => ok (x.only true true false 6 0) (.pumpIss x.a x.b x.f)
  | 0x31 => ok (x.only true true true 3 0) (.gathIss x.a x.b x.c x.f)
  | 0x32 => ok (x.only true true false 0 0) (.infIss x.a x.b)
  | 0x33 => ok (x.only false true true 6 28 && x.f % 8 != 7 && mem != 3 && x.imm / 32 % 2048 == 0)
      (.red x.b x.c (x.f % 8) mem (bit x.f 5) (x.imm % 32 + 1) (x.imm / 65536))
  | 0x34 => ok (x.only false true false 0 0) (.grant x.b)
  | 0x35 => ok (x.only false false false 0 21 && x.imm / 1024 % 4 != 3 && !(x.imm / 1024 % 4 == 2 && bit x.imm 9))
      (.strmBind (x.imm % 64) (x.imm / 64 % 8) (x.imm / 512 % 2) (x.imm / 1024 % 4) (x.imm / 4096 % 64) (x.imm / 262144))
  | 0x36 => ok (x.only true true false 1 32 && x.imm / 512 % 128 == 0 && decide (1 ≤ x.imm / 65536)
        && decide (x.imm / 65536 ≤ 1024)) (.strmSend x.a x.b (bit x.f 0) (x.imm % 64) (x.imm / 64 % 8) (x.imm / 65536))
  | 0x37 => ok (x.only true true false 0 32 && x.imm / 512 % 128 == 0 && decide (1 ≤ x.imm / 65536)
        && decide (x.imm / 65536 ≤ 1024)) (.strmRecv x.a x.b (x.imm % 64) (x.imm / 64 % 8) (x.imm / 65536))
  | 0x38 => ok (x.only false false false 6 0) (.fence x.f)
  | 0x40 => ok (x.only false true false 0 32) (.tokAcq x.b x.imm)
  | 0x41 => ok (x.only false true false 0 32) (.tokRel x.b x.imm)
  | 0x48 => ok (x.only false true false 0 12) (.sigPost x.b (x.imm % 64) (bit x.imm 6) (x.imm / 128))
  | 0x49 => ok (x.only false false false 0 32 && x.imm / 32 % 2048 == 0) (.sigWait (x.imm % 32) (x.imm / 65536))
  | 0x4A => ok (x.only true false false 0 5) (.sigRead x.a x.imm)
  | 0x50 => ok (x.only false true false 0 32) (.slotWait x.b x.imm)
  | 0x51 => ok (x.only false true false 0 32) (.slotLen x.b x.imm)
  | 0x52 => ok (x.only true false false 0 0) (.slotGet x.a)
  | 0x53 => ok (x.only true false false 0 0) (.timeGet x.a)
  | 0x54 => ok (x.only true false false 0 8) (.csrRd x.a x.imm)
  | 0x60 => ok (x.only false true false 0 16) (.dbgMark x.b x.imm)
  | 0x61 => ok (x.only false false false 0 0) .dbgStop
  | _ => none

/-- The word of an instruction (Tables 15-1 and 15-2). -/
def encodeSeq (i : SInstr) : Nat :=
  let flag (b : Bool) (n : Nat) : Nat := if b then 2 ^ n else 0
  packFields (match i with
  | .nop => ⟨0x01, 0, 0, 0, 0, 0⟩
  | .jal a imm => ⟨0x02, a, 0, 0, 0, imm⟩
  | .jalr a b imm => ⟨0x03, a, b, 0, 0, imm⟩
  | .br b c cond imm => ⟨0x04, 0, b, c, cond, imm⟩
  | .bri b cond imm off => ⟨0x05, 0, b, 0, cond, 65536 * imm + off⟩
  | .sel a b c d => ⟨0x06, a, b, c, d, 0⟩
  | .fin => ⟨0x07, 0, 0, 0, 0, 0⟩
  | .alu a b c fn => ⟨0x10, a, b, c, fn, 0⟩
  | .alui a b fn imm => ⟨0x11, a, b, 0, fn, imm⟩
  | .li a imm => ⟨0x12, a, 0, 0, 0, imm⟩
  | .lih a imm => ⟨0x13, a, 0, 0, 0, imm⟩
  | .lds a b size signed imm => ⟨0x18, a, b, 0, size + flag signed 2, imm⟩
  | .sts b c size imm => ⟨0x19, 0, b, c, size, imm⟩
  | .ld a b size signed kind imm => ⟨0x20, a, b, 0, size + flag signed 2 + 8 * kind, imm⟩
  | .st b c size kind imm => ⟨0x21, 0, b, c, size + 8 * kind, imm⟩
  | .ldPair a b kind imm => ⟨0x22, a, b, 0, 8 * kind, imm⟩
  | .stPair b c kind imm => ⟨0x23, 0, b, c, 8 * kind, imm⟩
  | .pref b kind imm => ⟨0x24, 0, b, 0, 8 * kind, imm⟩
  | .pumpIss a b slot => ⟨0x30, a, b, 0, slot, 0⟩
  | .gathIss a b c engine => ⟨0x31, a, b, c, engine, 0⟩
  | .infIss a b => ⟨0x32, a, b, 0, 0, 0⟩
  | .red b c type kind ordered n ast => ⟨0x33, 0, b, c, type + 8 * kind + flag ordered 5, (n - 1) + 65536 * ast⟩
  | .grant b => ⟨0x34, 0, b, 0, 0, 0⟩
  | .strmBind cluster unit dir kind index engine =>
    ⟨0x35, 0, 0, 0, 0, cluster + 64 * unit + 512 * dir + 1024 * kind + 4096 * index + 262144 * engine⟩
  | .strmSend a b paced cluster unit n => ⟨0x36, a, b, 0, flag paced 0, cluster + 64 * unit + 65536 * n⟩
  | .strmRecv a b cluster unit n => ⟨0x37, a, b, 0, 0, cluster + 64 * unit + 65536 * n⟩
  | .fence mask => ⟨0x38, 0, 0, 0, mask, 0⟩
  | .tokAcq b imm => ⟨0x40, 0, b, 0, 0, imm⟩
  | .tokRel b imm => ⟨0x41, 0, b, 0, 0, imm⟩
  | .sigPost b index toCluster counter => ⟨0x48, 0, b, 0, 0, index + flag toCluster 6 + 128 * counter⟩
  | .sigWait j v => ⟨0x49, 0, 0, 0, 0, j + 65536 * v⟩
  | .sigRead a j => ⟨0x4A, a, 0, 0, 0, j⟩
  | .slotWait b imm => ⟨0x50, 0, b, 0, 0, imm⟩
  | .slotLen b imm => ⟨0x51, 0, b, 0, 0, imm⟩
  | .slotGet a => ⟨0x52, a, 0, 0, 0, 0⟩
  | .timeGet a => ⟨0x53, a, 0, 0, 0, 0⟩
  | .csrRd a id => ⟨0x54, a, 0, 0, 0, id⟩
  | .dbgMark b imm => ⟨0x60, 0, b, 0, 0, imm⟩
  | .dbgStop => ⟨0x61, 0, 0, 0, 0, 0⟩)

/-- Registers below 32. -/
def regs (l : List Nat) : Bool := l.all (· < 32)

/-- Every operand fits its field and holds no value that R665 calls invalid. -/
def SInstr.wf (i : SInstr) : Bool :=
  let word (v : Nat) : Bool := decide (v < 4294967296)
  let memKind (k : Nat) : Bool := k == 1 || k == 2
  match i with
  | .nop | .fin | .dbgStop => true
  | .jal a imm => regs [a] && word imm
  | .jalr a b imm => regs [a, b] && word imm
  | .br b c cond imm => regs [b, c] && decide (cond ≤ 5) && word imm
  | .bri b cond imm off => regs [b] && decide (cond ≤ 5) && decide (imm < 65536) && decide (off < 65536)
  | .sel a b c d => regs [a, b, c, d]
  | .alu a b c fn => regs [a, b, c] && decide (fn < 16)
  | .alui a b fn imm => regs [a, b] && decide (fn < 16) && word imm
  | .li a imm | .lih a imm => regs [a] && word imm
  | .lds a b size _ imm => regs [a, b] && decide (size < 4) && word imm
  | .sts b c size imm => regs [b, c] && decide (size < 4) && word imm
  | .ld a b size _ kind imm => regs [a, b] && decide (size < 4) && memKind kind && word imm
  | .st b c size kind imm => regs [b, c] && decide (size < 4) && memKind kind && word imm
  | .ldPair a b kind imm => regs [a, b] && a % 2 == 0 && memKind kind && word imm
  | .stPair b c kind imm => regs [b, c] && c % 2 == 0 && memKind kind && word imm
  | .pref b kind imm => regs [b] && memKind kind && word imm
  | .pumpIss a b slot => regs [a, b] && decide (slot < 64)
  | .gathIss a b c engine => regs [a, b, c] && decide (engine < 8)
  | .infIss a b => regs [a, b]
  | .red b c type kind _ n ast =>
    regs [b, c] && decide (type < 7) && decide (kind < 3) && decide (1 ≤ n) && decide (n ≤ 32) && decide (ast < 4096)
  | .grant b => regs [b]
  | .strmBind cluster unit dir kind index engine =>
    decide (cluster < 64) && decide (unit < 8) && decide (dir < 2) && decide (kind < 3) && !(kind == 2 && dir == 1)
      && decide (index < 64) && decide (engine < 8)
  | .strmSend a b _ cluster unit n =>
    regs [a, b] && decide (cluster < 64) && decide (unit < 8) && decide (1 ≤ n) && decide (n ≤ 1024)
  | .strmRecv a b cluster unit n =>
    regs [a, b] && decide (cluster < 64) && decide (unit < 8) && decide (1 ≤ n) && decide (n ≤ 1024)
  | .fence mask => decide (mask < 64)
  | .tokAcq b imm | .tokRel b imm | .slotWait b imm | .slotLen b imm => regs [b] && word imm
  | .sigPost b index _ counter => regs [b] && decide (index < 64) && decide (counter < 32)
  | .sigWait j v => decide (j < 32) && decide (v < 65536)
  | .sigRead a j => regs [a] && decide (j < 32)
  | .slotGet a | .timeGet a => regs [a]
  | .csrRd a id => regs [a] && decide (id < 256)
  | .dbgMark b imm => regs [b] && decide (imm < 65536)

/-- Registers an instruction reads. -/
def SInstr.reads (i : SInstr) : List Nat :=
  match i with
  | .jalr _ b _ | .bri b _ _ _ | .alui _ b _ _ | .lds _ b _ _ _ | .ld _ b _ _ _ _ | .ldPair _ b _ _ | .pref b _ _
  | .pumpIss _ b _ | .infIss _ b | .grant b | .strmSend _ b _ _ _ _ | .strmRecv _ b _ _ _ | .tokAcq b _ | .tokRel b _
  | .sigPost b _ _ _ | .slotWait b _ | .slotLen b _ | .dbgMark b _ => [b]
  | .br b c _ _ | .alu _ b c _ | .sts b c _ _ | .st b c _ _ _ | .gathIss _ b c _ | .red b c _ _ _ _ _ => [b, c]
  | .stPair b c _ _ => [b, c, c + 1]
  | .sel _ b c d => [b, c, d]
  | .lih a _ => [a]
  | _ => []

/-- Issue cycles (Table 15-2), a branch not taken. -/
def SInstr.cycles (i : SInstr) : Nat :=
  match i with
  | .jal _ _ | .jalr _ _ _ | .red _ _ _ _ _ _ _ | .grant _ | .strmBind _ _ _ _ _ _ | .strmSend _ _ _ _ _ _
  | .strmRecv _ _ _ _ _ | .dbgMark _ _ => 2
  | .pumpIss _ _ _ | .gathIss _ _ _ _ | .infIss _ _ => 4
  | _ => 1

/-- Result latency (Table 15-2). -/
def SInstr.latency (i : SInstr) : Nat :=
  match i with
  | .alu _ _ _ fn | .alui _ _ fn _ => if fn = 10 || fn = 11 then 3 else 1
  | .lds _ _ _ _ _ | .sigRead _ _ | .csrRd _ _ => 2
  | .timeGet _ => 3
  | _ => 1

end Sys2Proof.Machine
end

