-- ==== Sys2Proof/Machine/Issue.lean ====
section
/-! DEFINITION. Issuing an instruction of a sequencer: readiness, register freshness, scratch reads, outstanding
operations, the hazard detector (chapters 14, 15). -/

namespace Sys2Proof.Machine

/-- Address kind of the sequencer's own local scratch in spans. -/
def kScratch : Nat := 4

/-- Register values as an instruction reads them at its issue. -/
abbrev View := Nat → BitVec 64

/-- A slot's clear address (R669). -/
def clearLow (v : BitVec 64) (n : Nat) : Nat := v.toNat / 2 ^ n * 2 ^ n

/-- ea = (s[b] + sext(imm, 32)) mod 2^64, cleared to an access size of 2^n bytes (R669). -/
def ea (v : View) (b imm n : Nat) : Nat := clearLow (v b + sext 32 imm) n

namespace Sequencer

/-- Held tokens not in use. -/
def spare (x : Sequencer) : Nat := x.held - x.inUse

def next (x : Sequencer) : Sequencer := { x with pc := (x.pc + 1) % 8192 }

/-- A branch or jump by a signed displacement of `n` bits (R666). -/
def jump (x : Sequencer) (base n disp : Nat) : Sequencer :=
  { x with pc := (((base : Int) + signedOf n disp) % 8192).toNat }

/-- `c` slice cycles pass. -/
def elapse (x : Sequencer) (c : Nat) : Sequencer :=
  { x with fresh := (x.fresh.keep fun _ f => decide (c < f.left)).map fun _ (f : Fresh) => { f with left := f.left - c } }

/-- Writes a result; it is sure to be read after `lat` cycles (R668). -/
def result (x : Sequencer) (i : Nat) (v : BitVec 64) (lat : Nat) : Sequencer :=
  let old := x.reg i
  let x' := x.setReg i v
  if lat ≤ 1 || i = 0 then { x' with fresh := x'.fresh.erase i }
  else { x' with fresh := x'.fresh.set i { old := old, left := lat, index := x.pc } }

/-- Registers as read now: an unsettled one gives its old or its new value (R668, H1). -/
def view (x : Sequencer) (ctr : Nat) : View := fun i =>
  match x.fresh.get? i with
  | some f => if Config.freeNat (ctr + i) % 2 = 1 then x.reg i else f.old
  | none => x.reg i

/-- A byte of scratch that an outstanding operation writes (H2). -/
def owned (x : Sequencer) (a : Nat) : Option SeqOp :=
  x.ops.find? fun o => o.writes.any fun w => w.kind == kScratch && decide (w.addr ≤ a) && decide (a < w.addr + w.len)

/-- Scratch bytes as a program reads them: those an outstanding operation writes are old, new or partly written, so free
bytes (H2 of Table 14-4). -/
def look (x : Sequencer) (ctr a n : Nat) : Bytes :=
  (x.read a n).zipIdx.map fun c => if (x.owned (a + c.2)).isSome then Config.freeByte (ctr + 32 + c.2) else c.1

end Sequencer

/-- Two spans share a byte. -/
def Span.meets (a b : Span) : Bool := a.kind == b.kind && decide (a.addr < b.addr + b.len) && decide (b.addr < a.addr + a.len)

namespace State

/-! ### Ownership (chapter 14) -/

/-- What the caddy of sequencer `q` holds. -/
def bindingOf (s : State) (q : Nat) : Binding :=
  (((s.sq q).caddy.bind fun c => s.inf.caddies.get? c).bind (·.bound)).getD ⟨[], [], [], [], [], 0⟩

def slotOf (s : State) (q : Nat) : Nat := (s.sq q).caddy.getD 0

/-- The function of the sequencer's program. -/
def seqFn (s : State) (q : Nat) : Nat := s.caddyFn (s.slotOf q)

/-! ### Readiness -/

/-- The sequencer starts an instruction: running, nothing blocking, its clock on (R624, R667). -/
def mayIssue (s : State) (q : Nat) : Bool :=
  let x := s.sq q
  decide (q < 64) && decide (x.state = .running) && x.wait.isNone && !s.islandHalted q

/-- SECDED errors found in words of local scratch: corrected and counted, or uncorrectable (R673). -/
def scratchFaults (s : State) (q : Nat) (fs : List WordFault) : State :=
  fs.foldl (fun s f =>
    if f.double then s.modSq q fun x => { x with badWords := (f.word % 8192 :: x.badWords).eraseDups }
    else
      let x := s.slice q
      s.setSlice q (if f.check then { x with checkOnly := x.checkOnly + 1 } else { x with corrected := x.corrected + 1 })) s

/-! ### Hazards (R655, R656, Tables 14-4 and 14-8) -/

/-- The detector holds an instruction: counted once for each hold, reported once for each index and rule in a run. -/
def hazard (s : State) (q rule with_ : Nat) : State :=
  let x := s.sq q
  let key := 8 * x.pc + rule
  let first := !x.reported.contains key
  let s := s.setSq q { x with hazards := x.hazards + 1, reported := if first then key :: x.reported else x.reported }
  if first then s.raise 0x0B02 sevNotice (seqUnit q) [(3, rule), (13, 0), (13, x.pc), (3, 0), (13, with_)] else s

/-- Holds the instruction at pc on a conflict: counted when the hold begins. -/
def holdOn (s : State) (q rule with_ : Nat) : State :=
  let x := s.sq q
  if x.hold = some x.pc then s else (s.hazard q rule with_).modSq q fun y => { y with hold := some y.pc }

/-- Debug: registers not yet settled are waited for (H1). -/
def holdRegs (s : State) (q : Nat) (i : SInstr) : State :=
  match i.reads.findSome? fun r => (s.sq q).fresh.get? r with
  | none => s
  | some f => (s.hazard q 1 f.index).modSq q fun x => { x with fresh := {} }

/-- What an instruction touches: scratch it reads at issue, and what it or its operation reads and writes. -/
structure Touch where
  /-- An access of the sequencer itself to memory or a reducer, ordered by its line (R677). -/
  ordered : Bool := false
  scratch : List Span := []
  reads : List Span := []
  writes : List Span := []
  /-- It changes a binding or the slot length: outstanding operations it concerns. -/
  binding : SeqOp → Bool := fun _ => false

/-- The first conflict with an outstanding operation: rule, and the index of the operation's instruction. -/
def conflict (x : Sequencer) (t : Touch) : Option (Nat × Nat) :=
  let hit := fun (a b : List Span) => a.any fun p => b.any p.meets
  let lined := fun (o : SeqOp) => t.ordered && (o.cls == 3 || o.cls == 5)
  let h2 := (x.ops.find? fun o => hit t.scratch o.writes).map fun o => (2, o.index)
  let h3 := (x.ops.find? fun o => !lined o && (hit t.writes (o.reads ++ o.writes) || hit t.reads o.writes)).map fun o => (3, o.index)
  let h4 := (x.ops.find? t.binding).map fun o => (4, o.index)
  h2.or (h3.or h4)

/-! ### Issue -/

/-- The word at pc. -/
def wordAt (s : State) (q : Nat) : Nat := ((s.sq q).store.get 0 (s.sq q).pc).toNat

/-- Issues the instruction at pc when it is one of opcode `op`: `touch` says what it touches, `run` carries it out, or
answers nothing while it waits (R624, R655, R657, R665). -/
def issue (s : State) (q op : Nat) (faults : List WordFault) (touch : View → SInstr → Touch)
    (run : State → View → SInstr → Option State) : State :=
  if !s.mayIssue q || s.wordAt q % 256 ≠ op then s
  else
    match decodeSeq (s.wordAt q) with
    | none => s.trapSeq q (s.sq q).pc { cause := 1 }
    | some i =>
      let s := s.scratchFaults q faults
      let ready := s.modSq q fun x => x.elapse i.cycles
      let ready := if (s.sq q).debug then ready.holdRegs q i else ready
      let x := ready.sq q
      let v := x.view s.freeCtr
      match if x.debug then conflict x (touch v i) else none with
      | some (rule, w) => s.holdOn q rule w
      | none =>
        match run ready v i with
        | none => s
        | some s' =>
          let s' := s'.modSq q fun y => { y with hold := none }
          if x.fresh.cells.isEmpty && x.ops.isEmpty then s' else { s' with freeCtr := s'.freeCtr + 131072 }

/-- A result register and the next instruction. -/
def seqResult (s : State) (q a : Nat) (v : BitVec 64) (lat : Nat) : State :=
  s.modSq q fun x => (x.result a v lat).next

def seqNext (s : State) (q : Nat) : State := s.modSq q Sequencer.next

def seqTrap (s : State) (q cause addr unit : Nat) : State :=
  s.trapSeq q (s.sq q).pc { cause := cause, addr := addr % 2 ^ 48, unit := unit }

/-- Adds an outstanding operation issued at pc; its tokens come into use. -/
def addOp (s : State) (q : Nat) (o : SeqOp) : State × SeqTag :=
  let x := s.sq q
  (s.setSq q { x with ops := x.ops ++ [{ o with id := x.nextOp, index := x.pc }], nextOp := x.nextOp + 1,
                      inUse := x.inUse + o.tokens },
   ⟨q, x.nextOp, x.program⟩)

/-- In debug mode a 65th outstanding operation waits (R657). -/
def opLimit (s : State) (q : Nat) : Bool := (s.sq q).debug && decide ((s.sq q).ops.length ≥ 64)

/-- Tokens of an operation that has completed return: to the free held tokens, or to the pool once the sequencer has
stopped (R649, R701). -/
def returnTokens (s : State) (q n : Nat) : State :=
  s.modSq q fun x =>
    let gone := match x.state with | .running => false | _ => true
    { x with inUse := x.inUse - n, held := if gone then x.held - n else x.held }

/-- A SIG.WAIT in progress completes once its counter suffices (R638). -/
def wakeSignal (s : State) (q : Nat) : State :=
  let x := s.sq q
  match x.wait with
  | some (.signal j v) =>
    if x.counters.get 0 j ≥ v then s.setSq q { x.next with wait := none, counters := x.counters.set j (x.counters.get 0 j - v) }
    else s
  | _ => s

/-- Adds to a counter, and lets a wait on it complete (R638, R681). -/
def postCounter (s : State) (q j v : Nat) : State := (s.modSq q fun x => x.bump j v).wakeSignal q

/-! ### Places and lines -/

/-- The line of an access of this sequencer, by home: 128-byte DPA line of memory or of the scratchpad window. -/
def lineOf (s : State) (p : Place) : Option Nat :=
  match p with
  | .polder i o => (s.polder? i).bind fun q => (q.dpa o).map (· / 128)
  | .scratch a => some (a / 128)
  | _ => none

/-- The place of an address of sequencer `q`. -/
def seqPlace (s : State) (q : Nat) (job : Option Nat) (kind addr : Nat) : Place := s.place (s.slotOf q) job kind addr

/-- The line that a store or a reducer operation not yet applied will touch. -/
def opLine (s : State) (q : Nat) (o : SeqOp) : Option Nat :=
  match o.work with
  | .store kind addr _ => s.lineOf (s.seqPlace q none kind addr)
  | .red kind addr _ _ _ _ _ job none => s.lineOf (s.seqPlace q job kind addr)
  | _ => none

/-- An earlier store or reducer operation of the sequencer still goes to the line (R677). -/
def lineBusy (s : State) (q before : Nat) (p : Place) : Bool :=
  match s.lineOf p with
  | none => false
  | some l => (s.sq q).ops.any fun o => decide (o.id < before) && s.opLine q o == some l

end State

end Sys2Proof.Machine
end

