-- ==== Sys2Proof/Machine/SeqRun.lean ====
section
/-! DEFINITION. How blocking instructions, programs and stream operations of a sequencer come to their end
(chapters 14, 15, 16). -/

namespace Sys2Proof.Machine

namespace State

/-! ### Grants (R688, R738, R741) -/

/-- Grant bitmap of a die. -/
def grantMap (s : State) (d : Nat) : Nat :=
  (List.range 64).foldl (fun m i => m + (if (s.port (64 * d + i)).grant.isSome then 2 ^ i else 0)) 0

/-- STATE on a die's power sideband: clock limit, grants, TBASE (R738). -/
def sendState (s : State) (d : Nat) : State :=
  let body := toLE 1 1 ++ toLE 1 (s.die d).clockPct ++ toLE 6 0 ++ toLE 8 (s.grantMap d) ++ toLE 8 (s.follower islPmgr) ++ toLE 8 0
  s.emit (.psb d (body ++ toLE 2 (crc16 body)))

/-- STATE to the dies of these clusters. -/
def sendStates (s : State) (clusters : List Nat) : State :=
  ((clusters.map (· / 64)).eraseDups).foldl sendState s

/-- Ends grants in force: their 2 tokens return to the sequencer that took them (R741, Table 14-2). -/
def endGrants (s : State) (clusters : List Nat) : State :=
  clusters.foldl (fun s c =>
    match (s.port c).grant with
    | some q => (s.returnTokens q 2).setPort c { s.port c with grant := none }
    | none => s) s

/-! ### The end of a program (R646, R647, R171) -/

/-- Releases the envelope and the grants of the program that a caddy runs; the caddy is BOUND again (R171, R647). -/
def endProgram (s : State) (slot : Nat) : State :=
  match (s.inf.caddies.get? slot).bind (·.bound) with
  | none => s
  | some b =>
    let granted := b.clusters.filter fun c => (s.port c).grant.isSome
    let s := (s.endGrants granted).sendStates granted
    let s := b.seqs.foldl (fun s q => s.modSq q fun x => { x with held := 0, inUse := 0, program := 0, stopping := false }) s
    (s.modCaddy slot fun c => { c with program := 0, envelope := 0 }).caddyTo slot 3

/-- END completes once nothing is outstanding; the last one ends the program (R646, R647). Tokens of grants in force stay
in use until the grant or the program ends. -/
def finishEnd (s : State) (q : Nat) : State :=
  let x := s.sq q
  match x.wait with
  | some .finish =>
    if !x.ops.isEmpty then s
    else
      let s := s.setSq q { x with state := .idle, wait := none, held := x.inUse, ended := true }
      if (s.bindingOf q).seqs.all fun r => (s.sq r).ended then s.endProgram (s.slotOf q) else s
  | _ => s

/-- A FENCE in progress completes once none of its operations is outstanding (R693). -/
def wakeFence (s : State) (q : Nat) : State :=
  let x := s.sq q
  match x.wait with
  | some (.fence ids) =>
    if x.ops.any fun o => ids.contains o.id then s else s.setSq q { x.next with wait := none }
  | _ => s

/-! ### STRM operations -/

def setWork (s : State) (q id : Nat) (w : OpWork) (done : Option OpDone) : State :=
  s.modSq q fun x => { x with ops := x.ops.map fun (o : SeqOp) => if o.id = id then { o with work := w, done := o.done.or done } else o }

/-- The oldest STRM.RECV on a stream unit takes what has arrived, in blocks of 64 bytes (chapter 15). -/
def feedRecv (s : State) (q c unit : Nat) : State :=
  let mine := fun (o : SeqOp) => match o.work with
    | .recv c' u _ left => c' == c && u == unit && o.done.isNone && decide (left ≠ 0)
    | _ => false
  match (s.sq q).ops.find? mine with
  | none => s
  | some o =>
    match o.work with
    | .recv _ _ addr left =>
      let have_ := (((s.port c).inbox.get [] unit).map List.length).foldl (· + ·) 0 / 64
      let n := min left have_
      if n = 0 then s
      else
        let (s, bs) := s.takeInbox c unit (64 * n)
        let s := s.modSq q fun x => x.write addr bs
        s.setWork q o.id (.recv c unit (addr + 64 * n) (left - n)) (if n = left then some {} else none)
    | _ => s

/-- Every STRM.RECV of a stream unit that what has arrived can serve. -/
def feedRecvs : Nat → Nat → Nat → Nat → State → State
  | 0, _, _, _, s => s
  | n + 1, q, c, unit, s => feedRecvs n q c unit (s.feedRecv q c unit)

/-- The bytes of a block that a paced send puts into its slot: as read at issue, free where the program has overwritten
them since (H3 of Table 14-4). -/
def paceBytes (x : Sequencer) (ctr src : Nat) (b : Bytes) : Bytes :=
  (b.zip (x.read src 64)).zipIdx.map fun c => if c.1.1 = c.1.2 then c.1.1 else Config.freeByte (ctr + c.2)

/-- The next block of a paced send enters its slot (R692). -/
def paceOne (s : State) (q : Nat) (o : SeqOp) : State :=
  match o.work with
  | .send c unit src (b :: rest) true =>
    if o.done.isSome then s
    else
      let bs := paceBytes (s.sq q) s.freeCtr src b
      let s := s.setWork q o.id (.send c unit (src + 64) rest true) none
      let g : Group := { type := grpStream, unit := unit, mark0 := markData, mark1 := 1 + s.freeNat % 3, last := rest.isEmpty,
                         data := bs }
      State.sendGroups { s with freeCtr := s.freeCtr + 64 } c [g]
  | _ => s

end State

end Sys2Proof.Machine
end

