-- ==== Sys2Proof/Machine/ServiceCore.lean ====
section
/-! DEFINITION. Changing a unit's state, and losing a cluster port (chapters 16, 22). -/

namespace Sys2Proof.Machine

/-- Table 22-1. -/
def unitCode (u : UnitState) : Nat :=
  match u with
  | .inService => 0 | .draining => 1 | .outOfService => 2 | .underTest => 3 | .returning => 4

/-- Causes of a change of unit state (Table 22-3). -/
def byCommand : Nat := 0
def byForce : Nat := 1
def byFailure : Nat := 2
def byBoot : Nat := 3

namespace State

/-- A unit changes state, with EV_UNIT_STATE (R945, Table 22-3). -/
def changeUnit (s : State) (u : Nat) (new : UnitState) (cause : Nat) : State :=
  let old := s.unitState u
  if old = new then s
  else
    let s := { s with svc := { s.svc with states := s.svc.states.set u new } }
    s.raise 0x1101 sevInfo u [(3, unitCode old), (3, unitCode new), (2, cause), (16, 0xFFFF)]

/-- EV_D2D_WIRE_DEAD in the record of a compute die (Table 16-9), stamped where the port lives (R49). -/
def wireDead (s : State) (die unit cause path wire seq : Nat) : State :=
  s.raise 0x0C03 sevFailed (dieUnit die) [(16, unit), (4, cause), (2, path), (9, wire), (7, seq)] .unit (stampIsland unit)

/-- The streams of a cluster end where they stand; its requests are never answered (R717). -/
def cutStreams (s : State) (c : Nat) : State :=
  let s := s.setPort c { s.port c with requests := [], ctrl := [], txq := [], stream := {}, fetch := {} }
  (s.port c).bindings.cells.foldl (fun s b => s.streamEnds c (b.1 / 2) (b.1 % 2) b.2) s

/-- A cluster port is lost (R716, R717, R719); one lost by its CRC drives the walking ones. -/
def losePort (s : State) (c cause path wire seq : Nat) : State :=
  let s := s.wireDead (c / 64) (clusterUnit c) cause path wire seq
  let s := s.setPort c { s.port c with dead := true }
  let s := if cause = 0 then s.emit (.walkingOnes c) else s
  (s.cutStreams c).changeUnit (clusterUnit c) .outOfService (if cause = 2 || cause = 1 then byBoot else byFailure)

/-- A cluster port is trained: both ends start afresh and the base die advertises its buffers (R743, R722). -/
def trainCluster (s : State) (c : Nat) : State :=
  let p := s.port c
  let freed : Bank Nat := ⟨(List.range 9).map fun u => (u, if u = 8 then 64 else 32)⟩
  let s := s.setPort c { bindings := p.bindings, caddy := p.caddy, slot := p.slot, grant := p.grant, retries := p.retries,
                         discarded := p.discarded, freed := freed }
  s.sendCtrl c (toLE 1 3 ++ List.replicate 8 32 ++ [64])

end State

end Sys2Proof.Machine
end

