-- ==== Sys2Proof/Machine/LinkState.lean ====
section
/-! DEFINITION. How a link port trains, reaches ACTIVE or QUARANTINE, and leaves ACTIVE (chapter 17). -/

namespace Sys2Proof.Machine

/-- Causes for leaving ACTIVE (Table 17-3). -/
def leaveCodewords : Nat := 1
def leaveReplays : Nat := 2
def leaveSilent : Nat := 3
def leaveBlockLock : Nat := 4
def leaveTag : Nat := 5
def leaveStuff : Nat := 6
def leaveRefclk : Nat := 7
def leaveDrain : Nat := 8

/-- One hour of TBASE. -/
def hourNs : Nat := 3600000000000

/-- TBASE stamps of the last hour. -/
def lastHour (now : Nat) (l : List Nat) : List Nat := l.filter fun t => decide (now < t + hourNs)

/-- The port without a link: counters, held MARGIN results and the history of the last hour stay. -/
def LinkPort.untrained (x : LinkPort) : LinkPort :=
  { discarded := x.discarded, refused := x.refused, retrains := x.retrains, exits := x.exits, corrected := x.corrected,
    checkOnly := x.checkOnly, uncorrectable := x.uncorrectable, replays := x.replays, margins := x.margins,
    scanning := x.scanning }

/-- The link of the port begins afresh: sequences, credits and segments from zero (R770, R777). -/
def LinkPort.fresh (x : LinkPort) : LinkPort :=
  { x.untrained with state := x.state, work := x.work, exits := x.exits }

namespace State

/-! ### Requests that end failed (R784, R822) -/

/-- A request of this device failed at its requester (R784, R822): halt cause 0x15, or trap cause 0x09. -/
def failRemote (s : State) (u : RemoteUser) : State :=
  match u with
  | .pump k index tile dva => s.pieceDone k index tile none 0x15 dva
  | .red q id =>
    match (s.sq q).ops.find? fun o => o.id == id with
    | some o => match o.work with
      | .red kind addr ast type n data ordered job none =>
        s.setWork q id (.red kind addr ast type n data ordered job (some false)) none
      | _ => s
    | none => s
  | .unit _ => s

/-- The completion of a request (Table 18-3). -/
def sendCpl (s : State) (p tag dst status : Nat) (data : Bytes) : State :=
  s.sendLink p clsCpl (txHeader 4 tag s.cohort.member dst data.length status 0 s.cohort.epoch.toNat ++ data)

/-- Steering stops and the correction returns to zero (R834). -/
def stopSteering (s : State) : State := { s with cohort := { s.cohort with steering := false, correction := 0 } }

/-- What was outstanding on a port ends: its requests failed, the requests forwarded on it answered FAILED, what
arrived on it dropped (R784, R797). -/
def endOutstanding (s : State) (p : Nat) : State :=
  let c := s.cohort
  let mine := c.reqs.filter fun r => r.port == p
  let held := c.waiting.filter fun r => r.port == p
  let sent := c.relayed.filter fun r => r.outPort == p
  let got := c.inbound.filter fun r => r.port == p
  let s := { s with cohort := { c with
    reqs := c.reqs.filter fun r => r.port != p
    waiting := c.waiting.filter fun r => r.port != p
    relayed := c.relayed.filter fun r => r.outPort != p && r.inPort != p
    inbound := c.inbound.filter fun r => r.port != p
    times := c.times.erase p } }
  let s := s.dropJobs (got.map fun r => some r.job)
  let s := (mine.map (·.user) ++ held.map (·.user)).foldl failRemote s
  sent.foldl (fun s r => if r.inPort = p then s else s.sendCpl r.inPort r.tag r.src cplFailed []) s

/-! ### Leaving ACTIVE (R781-R785) -/

/-- EV_LINK_DOWN (Table 17-4). -/
def linkDown (s : State) (p cause lane before codewords failed : Nat) (tried : Bool) : State :=
  let s := s.raise 0x0D01 sevFailed (portUnit p)
    [(8, cause), (3, lane), (4, before), (1, natOf tried), (32, codewords), (16, min failed 65535),
     (8, (s.trunkOf p).getD 0xFF), (24, 0)]
  s.changeUnit (portUnit p) .outOfService byFailure

/-- The exit counts for SO_LINK_RETRAIN, which triggers while its hourly limit lasts (R185, Table 5-2). -/
def triggerRetrain (s : State) (p : Nat) : State :=
  let ref := orderRef 6 (portUnit p)
  let o := s.order ref
  let o := { o with inForce := o.params, triggered := true, count := satInc (2 ^ 32 - 1) o.count,
                    value := (s.lport p).exits.length }
  (s.setOrder ref o).orderEvent true ref o

/-- The action of SO_LINK_RETRAIN ended (R185). -/
def releaseRetrain (s : State) (p : Nat) : State :=
  let ref := orderRef 6 (portUnit p)
  let o := s.order ref
  if o.triggered then (s.setOrder ref { o with triggered := false }).orderEvent false ref o else s

/-- A port leaves ACTIVE for a cause on a lane, 7 for none (R781-R785, R799, R834). -/
def leaveActive (s : State) (p cause lane : Nat) : State :=
  if !s.portUp p then s
  else
    let s := if cause = leaveDrain then s else s.putLink p false true
    let x := s.lport p
    let failed := (s.cohort.reqs.filter fun r => r.port == p).length
    let codewords := (x.uncorrAt.filter fun t => decide (s.now < t + 1000000)).length
    let retrains := lastHour s.now x.retrains
    let o := s.order (orderRef 6 (portUnit p))
    let retry := cause != leaveDrain && o.armed && decide (retrains.length < fieldAt o.params 0 2)
    let y := { x.untrained with exits := s.now :: lastHour s.now x.exits, retrains := retrains }
    let y := if retry then
        { y with state := portRetrain, retrains := s.now :: retrains, member := x.member, identity := x.identity
                 work := some (.retrain cause lane s.now failed codewords) }
      else y
    let s := (s.setLport p y).endOutstanding p
    let s := if s.cohort.leaderPort = portUnit p then s.stopSteering else s
    if retry then s.triggerRetrain p
    else if cause = leaveDrain then s
    else s.linkDown p cause lane portActive codewords failed false

/-! ### Training (R773-R780) -/

/-- A training frame sent on a lane (Table 17-6). -/
def putFrame (s : State) (p lane request status preset : Nat) : State :=
  let b := [lane, (s.lport p).state, request, status, preset, 0, 0, 0]
  let b := b.map fun v => BitVec.ofNat 8 v
  s.emit (.flit p 4 (b ++ toLE 2 (flitCrc b)))

/-- A training begins in DETECT, unless the quadrant has had no reference since cold boot (R251, R774). -/
def beginTraining (s : State) (p : Nat) (w : PortWork) : State :=
  let x := s.lport p
  let s := s.setLport p { x.untrained with state := portDetect, work := some w }
  (List.range 4).foldl (fun s lane => s.putFrame p lane 0 0 0) s

/-- The port cannot train: its quadrant's reference was absent at the last cold boot (R251). -/
def cannotTrain (s : State) (p : Nat) : Bool := s.link.noRef.contains (p / 12)

/-- The command that a training belongs to ends. -/
def endTrainCommand (s : State) (p opcode : Nat) (f : Finish) : State := s.endRunning opcode (portUnit p) f

/-- Byte 24 of PORT_TRAIN's final reply; UNIT_RETURN's result is zero (Tables 4-15, 4-17). -/
def trainResult (opcode state : Nat) : Bytes := if opcode = 0x1701 then toLE 1 state else []

/-- A training that reached neither ACTIVE nor QUARANTINE (R780): untrained, OUT_OF_SERVICE; byte 24 holds where it stopped. -/
def trainingFails (s : State) (p : Nat) : State :=
  let x := s.lport p
  match x.work with
  | some (.train opcode) =>
    let s := (s.setLport p x.untrained).changeUnit (portUnit p) .outOfService byFailure
    s.endTrainCommand p opcode { status := stState, detail := stateDetail 1 2, result := trainResult opcode x.state }
  | some .qualify =>
    let s := s.setLport p x.untrained
    s.endRunning 0x1702 (portUnit p) { status := stState, detail := stateDetail 1 2 }
  | some (.retrain cause lane _ failed codewords) =>
    let s := s.setLport p x.untrained
    (s.releaseRetrain p).linkDown p cause lane portRetrain codewords failed true
  | none => s

/-- The device's own manifest digest (R809). -/
def ownManifest (s : State) : Bytes :=
  sha384 (toLE 4 (s.image s.boot.bank).version ++ toLE 2 kymalVersion ++ toLE 2 s.cohort.blob.length ++ s.cohort.blob)

/-- The MANIFEST message (Table 18-5, R807). -/
def manifestMessage (s : State) : Bytes :=
  toLE 1 1 ++ toLE 1 s.cohort.member ++ toLE 2 kymalVersion ++ toLE 4 (s.image s.boot.bank).version ++ s.ownManifest
    ++ sha384 s.cohort.blob ++ (if s.cohort.compat.isEmpty then toLE 4 0 else s.cohort.compat)

/-- A firmware version is on a compatibility list: patch 0xFFFF matches any (Table 18-2). -/
def onList (list : Bytes) (version : Nat) : Bool :=
  (List.range (byteAt list 0)).any fun i =>
    let v := fieldAt list (4 + 4 * i) 4
    v == version || (v % 65536 == 0xFFFF && v / 65536 == version / 65536)

/-- R825, R826; `own` says that the partner's identity is the device's own. -/
def compatible (s : State) (m : Bytes) (own : Bool) : Bool :=
  let c := s.cohort
  let version := (s.image s.boot.bank).version
  decide (byteAt m 1 < 0xFF) && decide (c.member < 0xFF)
    && ((m.drop 8).take 48 == s.ownManifest
        || ((m.drop 56).take 48 == sha384 c.blob && onList (m.drop 104) version && onList c.compat (fieldAt m 4 4)))
    && (byteAt m 1 != c.member || own)

/-- IDENTIFY begins: a fresh ephemeral key, a free value, is drawn, and its public key goes to the partner (R775, R909). -/
def beginIdentify (s : State) (p : Nat) : State :=
  let d := s.freeNat
  ((s.setLport p { s.lport p with keys := none, ephemeral := some d }).tickFree).emit (.identify p (publicKey d))

/-- The lanes as ALIGN leaves them: the partner's line as received, and the device's own scramblers at free values (R754). -/
def alignLanes (s : State) (p : Nat) (lanes : List LinkLane) : State :=
  let tx := (List.range 4).map fun l =>
    let v := Config.freeNat (s.freeCtr + l)
    ({ reg := v % 2 ^ 58, level := v / 2 ^ 58 % 4, run := v / 2 ^ 60 % 31 } : LinkLane)
  { s.setLport p { s.lport p with txLanes := tx, rxLanes := lanes, line := [], rxq := [] } with freeCtr := s.freeCtr + 4 }

/-- The keys and salts of both directions (R776): the first key and salt serve the end with the lower public key. The order
key, key, salt, salt in what HKDF gives, and an empty info, are the model's (DESIGN CHOICE, log entry 74). -/
def deriveKeys (own partner secret : Bytes) : LinkKeys :=
  let low := decide (beNat own < beNat partner)
  let okm := hkdf384 secret (if low then own ++ partner else partner ++ own) [] 72
  let first := (fieldAt okm 0 32, (okm.drop 64).take 4)
  let second := (fieldAt okm 32 32, (okm.drop 68).take 4)
  if low then { txKey := first.1, txSalt := first.2, rxKey := second.1, rxSalt := second.2 }
  else { txKey := second.1, txSalt := second.2, rxKey := first.1, rxSalt := first.2 }

/-- The keys that the exchange agrees, where the partner's chain and signature verify and its key is a point (R775, R776). -/
def agreedKeys (s : State) (p : Nat) (chain : Bool) (i : PartnerIdentity) : Option LinkKeys :=
  if chain && ecdsaVerify i.key (sha384 i.ephemeral) i.signature then
    (s.lport p).ephemeral.bind fun d => (sharedSecret d i.ephemeral).map (deriveKeys (publicKey d) i.ephemeral)
  else none

/-- The keys of the link are agreed: credits are advertised and the manifest goes out (R776-R778, R770). -/
def linkKeyed (s : State) (p : Nat) (identity : Bytes) (keys : LinkKeys) : State :=
  let x := s.lport p
  let freed : Bank Nat := ⟨[(0, Config.linkBuffer 0 % 65536), (1, Config.linkBuffer 1 % 65536), (2, Config.linkBuffer 2 % 65536)]⟩
  let s := s.setLport p { x.untrained with state := x.state, work := x.work, keys := some keys, identity := identity, freed := freed
                                           acceptedAt := s.now, ackedAt := s.now, line := x.line, rxq := x.rxq
                                           txLanes := x.txLanes, rxLanes := x.rxLanes }
  (s.putLink p false false).sendLink p clsMgmt s.manifestMessage

/-- The partner of each trunk that holds the port, when no other listed port is ACTIVE (R798). -/
def joinTrunk (s : State) (p : Nat) : State :=
  match s.link.trunks.find? fun _ m => bitOf m p with
  | none => s
  | some (t, m) =>
    let other := (List.range 48).any fun i => bitOf m i && i != p && s.portUp i
    if other && s.link.partners.has t then s
    else { s with link := { s.link with partners := s.link.partners.set t (s.lport p).identity } }

/-- The port reaches ACTIVE (R773, R785). -/
def enterActive (s : State) (p : Nat) : State :=
  let x := s.lport p
  let s := (s.setLport p { x with state := portActive, work := none, acceptedAt := s.now }).joinTrunk p
  let s := s.changeUnit (portUnit p) .inService byCommand
  match x.work with
  | some (.train opcode) => s.endTrainCommand p opcode { status := stOk, result := trainResult opcode portActive }
  | some (.retrain cause _ since _ _) =>
    let s := s.raise 0x0D02 sevNotice (portUnit p)
      [(8, cause), (8, (lastHour s.now x.retrains).length), (32, (s.now - since) / 1000), (48, 0)]
    s.releaseRetrain p
  | _ => s

/-- The port enters QUARANTINE (R778, R779, R827, R174, Table 22-2): REQ and CPL passed on are discarded. -/
def enterQuarantine (s : State) (p : Nat) : State :=
  let x := s.lport p
  let gone := x.arrived.filter fun c => c.1 != clsMgmt
  let s := s.setLport p { x with state := portQuarantine, work := none, discarded := min 255 (x.discarded + gone.length)
                                 arrived := x.arrived.filter fun c => c.1 == clsMgmt }
  let s := s.raise 0x0D03 sevDegraded (portUnit p) [(8, 0), (8, x.member), (64, fieldAt x.manifest 0 8), (16, 0)]
  let s := s.changeUnit (portUnit p) .outOfService byFailure
  match x.work with
  | some (.train opcode) =>
    s.endTrainCommand p opcode (if opcode = 0x1701 then { status := stOk, result := toLE 1 portQuarantine }
      else { status := stState, detail := stateDetail 1 2 })
  | _ => s

end State

end Sys2Proof.Machine
end

