-- ==== Sys2Proof/Machine/Power.lean ====
section
/-! DEFINITION. The power manager: its control loop, clocks, rails, alerts and telemetry (chapter 20). -/

namespace Sys2Proof.Machine

/-! ### Rails (Tables 20-1, 20-3) -/

/-- The rail of an island: 4 VB_SLICE, 5 VB_LOGIC, 6 VB_MEM, 7 VB_LINK. -/
def railOfIsland (i : Nat) : Option Nat :=
  if i < 64 then some 4 else if i < 92 then some 6 else if i < 140 then some 7 else if i ≤ islXlat then some 5 else none

/-- Islands that a rail feeds. -/
def islandsOfRail (r : Nat) : List Nat := (List.range 181).filter fun i => railOfIsland i == some r

/-- Millivolts of a rail for the clock fraction num ÷ den (Table 20-3, R1040). -/
def railMv (r num den : Nat) : Nat :=
  let row := if 100 * num > 90 * den then 0 else if 100 * num > 75 * den then 1 else if 100 * num > 60 * den then 2
    else if 100 * num > 40 * den then 3 else 4
  let mv := if r < 4 then [850, 780, 700, 650, 550] else if r < 6 then [800, 760, 720, 680, 640] else [800, 780, 760, 740, 720]
  (mv[row]?).getD 0

/-- The rail of an IVR phase (Table 20-1, R876): 0-3 VCD_TA of dies 0-3, 4-7 the base-die rails above, 8 + 3d, 9 + 3d and
10 + 3d VCD_LOG, VCD_SRAM and VCD_IO of die d, 20 VB_CTL, 21-28 VST_CORE, 29-32 VST_PP. -/
def phaseRail (p : Nat) : Nat :=
  if p < 64 then
    let k := p % 16
    let d := p / 16
    if k < 10 then d else if k < 13 then 8 + 3 * d else if k < 15 then 9 + 3 * d else 10 + 3 * d
  else if p < 72 then 4 else if p < 78 then 5 else if p < 81 then 6 else if p < 83 then 7
  else if p = 83 then 20 else if p < 92 then 21 + (p - 84) else 29 + (p - 92)

/-- The voltage of a rail that stays at nominal in every state, in mV (Table 20-1, R890). -/
def fixedMv (r : Nat) : Nat :=
  if r < 20 then ([750, 800, 750][(r - 8) % 3]?).getD 0 else if r = 20 then 750 else if r < 29 then 1050 else 1800

/-- The rail that a sense point reads (R736). -/
def railOfPoint (n : Nat) : Nat :=
  if n < 24 then (if n % 6 < 3 then n / 6 else 8 + 3 * (n / 6) + (n % 6 - 3)) else 4 + (n - 24)

namespace State

/-! ### Temperatures (R879-R881) -/

/-- Base-die Tj in 0.1 °C: the hottest sensor that is not absent; none where all are (R880). -/
def baseTj (s : State) : Option Int :=
  s.power.base.cells.foldl (fun m c =>
    if c.2.missed > 3 then m else some (match m with | none => c.2.value | some v => max v c.2.value)) none

/-- A compute die's Tj: the hottest sensor that is not absent (R880), 125.0 °C from the fourth silent loop (R881); none
before its first SENSORS. -/
def dieTj (s : State) (d : Nat) : Option Nat :=
  match s.power.silent.get? d with
  | none => none
  | some n =>
    if n > 3 then some 1250
    else some ((s.die d).sensors.cells.foldl (fun m c => if c.2.missed > 3 then m else max m c.2.value.toNat) 0)

/-- A compute die has a sensor that is left out of its Tj. -/
def dieAbsent (s : State) (d : Nat) : Bool :=
  decide (s.power.silent.get 4 d > 3) || (s.die d).sensors.cells.any fun c => decide (c.2.missed > 3)

/-- The sensors of a stack are left out of Tj (R880). -/
def stackAbsent (s : State) (k : Nat) : Bool := match s.power.unread.get? k with | none => true | some n => decide (n > 3)

def stackTjNow (s : State) (k : Nat) : Option Nat := if s.stackAbsent k then none else some (s.stackTj k)

/-- Each Tj as the loop formed it is published with its telemetry (R879, R898, Table 20-6 step 7). -/
def publishTj (s : State) : State :=
  let perStack := (List.range 8).foldl (fun (b : Bank TjView) k => b.set k ⟨s.stackTjNow k, s.stackAbsent k⟩) {}
  let perDie := (List.range 4).foldl (fun (b : Bank TjView) d => b.set d ⟨s.dieTj d, s.dieAbsent d⟩) {}
  { s with power := { s.power with stackTjs := perStack, dieTjs := perDie } }

/-- The hottest stack of the latest completed loop. -/
def hottestStack (s : State) : Nat := (List.range 8).foldl (fun m k => max m ((s.power.stackTjs.get {} k).tj.getD 0)) 0

/-! ### Clocks in force and wanted (R40, R197, R887) -/

def islandMHz (s : State) (i : Nat) : Nat := s.power.clocks.get (nominalMHz i) i

/-- clock_pct of a triggered SO_DIE_THERMAL; none while quiet. -/
def clockPct (s : State) (ref : Nat) : Option Nat :=
  let o := s.order ref
  if o.triggered then some (fieldAt o.inForce 4 1) else none

/-- The lower of ISLAND_CLOCK_SET and the order on the base die (R197, R887). -/
def islandTarget (s : State) (i : Nat) : Nat :=
  let nom := nominalMHz i
  let set := (s.island i).setMHz.getD nom
  if i > islXlat then nom
  else match s.clockPct (orderRef 2 powerUnit) with
    | some pct => min set (nom * pct / 100 / 10 * 10)
    | none => set

def dieTarget (s : State) (d : Nat) : Nat := (s.clockPct (orderRef 2 (dieUnit d))).getD 100

def railNow (s : State) (r : Nat) : Nat := s.power.rails.get (railMv r 1 1) r

/-- The voltage a rail is set to. -/
def railSet (s : State) (r : Nat) : Nat := if r < 8 then s.railNow r else fixedMv r

def railOutput (s : State) (r : Nat) : Nat := s.power.outputs.get (s.railSet r) r

/-- The reading a rail is regulated to: the lowest of its sense points (R737). -/
def sensed (s : State) (r : Nat) : Option Nat :=
  s.power.sense.cells.foldl (fun m c =>
    if railOfPoint c.1 = r then some (match m with | none => c.2 | some v => min v c.2) else m) none

/-- A rail is in regulation at its voltage. -/
def inRegulation (s : State) (r : Nat) : Bool :=
  match s.sensed r with
  | none => false
  | some v => decide (v ≤ s.railSet r + Config.regulationBand r) && decide (s.railSet r ≤ v + Config.regulationBand r)

/-- Each rail that is sensed is driven so that its reading comes to its voltage (R737). -/
def driveRails (s : State) : State :=
  let outputs := (List.range 20).foldl (fun (b : Bank Nat) r =>
    match s.sensed r with
    | none => b
    | some v => b.set r (s.railOutput r + s.railSet r - v)) s.power.outputs
  { s with power := { s.power with outputs := outputs } }

/-- One base-die rail and its islands (R889, R890): clocks fall at once and the rail one loop later; the rail rises at
once and the clocks one loop after it is in regulation. -/
def regulateRail (s : State) (r : Nat) : State :=
  let before := s.railNow r
  let settled := s.inRegulation r
  let one := fun i =>
    let was := s.islandMHz i
    let want := s.islandTarget i
    (i, was, want, if want ≤ was || (settled && decide (railMv r want (nominalMHz i) ≤ before)) then want else was)
  let all := (islandsOfRail r).map one
  let clocks := all.foldl (fun (b : Bank Nat) x => if x.2.2.2 = nominalMHz x.1 then b.erase x.1 else b.set x.1 x.2.2.2) s.power.clocks
  let mv := all.foldl (fun m x => max m (railMv r (max x.2.1 (max x.2.2.1 x.2.2.2)) (nominalMHz x.1))) 0
  { s with power := { s.power with clocks := clocks, rails := s.power.rails.set r mv } }

/-- VCD_TA of a compute die and the clock limit of its STATE (R738, R889, R890); after a STATE that was lost the rail waits
for the one that repeats it. -/
def regulateDie (s : State) (d : Nat) (lost : Bool) : State :=
  let was := (s.die d).clockPct
  let want := s.dieTarget d
  let now := if want ≤ was || (s.inRegulation d && decide (railMv d want 100 ≤ s.railNow d)) then want else was
  let mv := railMv d (max was (max want now)) 100
  let s := { s with power := { s.power with rails := s.power.rails.set d (if lost then max mv (s.railNow d) else mv) } }
  let s := s.setDie d { s.die d with clockPct := now }
  if (s.die d).checked then s.sendState d else s

/-! ### The pool (R193, R194) -/

/-- SO_POOL_LIMIT against the mean of the last 100 loops: bytes 24-25 limit, 26-27 release, 28-29 step, 30-31 floor. -/
def evalPoolLimit (s : State) (mean : Nat) : State :=
  let ref := orderRef 5 powerUnit
  let o := s.order ref
  if !o.armed then s
  else
    let o := { o with inForce := o.params, value := mean }
    if !o.triggered && decide (mean > 1000 * fieldAt o.params 0 2) then
      let o := { o with triggered := true, count := satInc (2 ^ 32 - 1) o.count }
      let s := (s.setOrder ref o).orderEvent true ref o
      { s with power := { s.power with recovering := false } }
    else if o.triggered && decide (mean ≤ 1000 * fieldAt o.params 2 2) then
      let o := { o with triggered := false }
      let s := (s.setOrder ref o).orderEvent false ref o
      { s with power := { s.power with recovering := true } }
    else s.setOrder ref o

/-- The reduction rises by step while triggered and falls by step after release, and is never beyond 720 − floor, under the
parameters in force (R187, R194). -/
def stepReduction (s : State) : State :=
  let o := s.order (orderRef 5 powerUnit)
  let p := s.power
  let step := fieldAt o.inForce 4 2
  let most := 720 - fieldAt o.inForce 6 2
  if o.triggered then { s with power := { p with reduction := min (p.reduction + step) most } }
  else if p.recovering then
    { s with power := { p with reduction := min (p.reduction - step) most, recovering := decide (p.reduction > step) } }
  else s

/-! ### THERM_ALERT_N (R892, R893, R903) -/

/-- Conditions of Table 20-5, against thresholds lowered by `below`, in 0.1 °C. -/
def alertBits (s : State) (below : Nat) : Nat :=
  let base := match s.baseTj with | some t => decide (t > 1050 - (below : Int) || (below == 0 && t == 1050)) | none => false
  let past := fun (t : Option Nat) limit => match t with
    | some v => decide (v > limit - below || (below == 0 && v == limit))
    | none => false
  natOf base + 2 * natOf ((List.range 4).any fun d => past (s.dieTj d) 1050)
    + 4 * natOf ((List.range 4).any fun d => (s.die d).dtherm)
    + 8 * natOf ((List.range 8).any fun k => past (s.stackTjNow k) 950)

def evalAlert (s : State) : State :=
  let bits := s.alertBits 0
  let alert := bits != 0 || (s.power.alert && s.alertBits 30 != 0)
  { s with power := { s.power with conditions := bits, alert := alert } }

/-! ### What was measured -/

/-- Powers of one loop in the order of Table 20-7's records, then package and VIN_IVR input. -/
def loopPowers (s : State) (r : LoopReport) : List Nat :=
  let phases := (List.range 96).map fun p => if s.power.tripped.contains p then 0 else (r.phases[p]?).getD 0
  let input := phases.foldl (· + ·) 0
  let clusters := (List.range 256).map fun c => 10 * (s.die (c / 64)).powers.get 0 (c % 64)
  fitList 185 r.islands ++ fitList 8 r.nearStacks ++ fitList 4 r.dies ++ clusters ++ phases ++ [input + r.io, input]
where
  fitList (n : Nat) (l : List Nat) : List Nat := (List.range n).map fun i => (l[i]?).getD 0

/-- Mean of one figure over the last loops, at most 100. -/
def meanPower (s : State) (i : Nat) : Nat :=
  let l := s.power.history
  (l.foldl (fun n x => n + (x[i]?).getD 0) 0) / max 1 l.length

def lastPower (s : State) (i : Nat) : Nat := ((s.power.history.head?.bind fun x => x[i]?)).getD 0

/-- Sensor readings latched: one that gives none keeps its last for three loops (R880, R881). -/
def latchSensors (s : State) (r : LoopReport) : State :=
  let p := s.power
  let aged := p.base.map fun _ (x : Sensor) => { x with missed := min 4 (x.missed + 1) }
  let base := (r.base.filter fun x => x.1 < 64).foldl (fun (b : Bank Sensor) x => b.set x.1 ⟨x.2, 0⟩) aged
  let sense := (r.sense.filter fun x => x.1 < 28).foldl (fun (b : Bank Nat) x => b.set x.1 x.2) p.sense
  let age := fun (d : Die) => { d with sensors := d.sensors.map fun _ x => { x with missed := min 4 (x.missed + 1) } }
  { s with power := { p with base := base, sense := sense, silent := p.silent.map fun _ n => min 4 (n + 1)
                             unread := p.unread.map fun _ n => min 4 (n + 1) }
           d2d := { s.d2d with dies := s.d2d.dies.map fun _ d => age d } }

end State

/-- R190, R193-R197, R738, R877-R893 in the order of Table 20-6: readings, powers and Tj, orders and pool, alert,
clocks and STATE, rails. The loop stops with its island (chapter 02). -/
def execControlLoop (r : LoopReport) (s : State) : Host.Outcome State Fault Refusal :=
  .next (if s.islandHalted islPmgr || s.boot.step < 3 then s
    else
      let s := s.latchSensors r
      let powers := s.loopPowers r
      let p := s.power
      let energy := (List.range 549).map fun i => (p.energy[i]?).getD 0 + (powers[i]?).getD 0
      let s := { s with power := { p with loops := p.loops + 1, loopAt := s.follower islPmgr, energy := energy
                                          history := (powers :: p.history).take 100 } }
      let pool := s.pool
      let s : State := (List.range 4).foldl (fun (s : State) d => s.evalThermalOrder (orderRef 2 (dieUnit d)) ((s.dieTj d).getD 0)) s
      let s : State := s.evalThermalOrder (orderRef 2 powerUnit) ((s.baseTj.getD 0).toNat)
      let s : State := (s.evalPoolLimit (s.meanPower 549)).stepReduction
      let s := if s.pool < pool then { s with prog := { s.prog with waitReported := [] } } else s
      let s := s.evalAlert.publishTj
      let s : State := [4, 5, 6, 7].foldl State.regulateRail s
      ((List.range 4).foldl (fun (s : State) d => s.regulateDie d (r.stateLost.contains d)) s).driveRails)

/-- R894, R897, R237, Table 5-12: a comparator at 115.0 °C; THERM_TRIP_N stays asserted until PWR_OK falls. -/
def execThermTrip (k : Nat) (s : State) : Host.Outcome State Fault Refusal :=
  .next (if k ≥ 8 || !s.boot.pwrOk || s.power.trip.contains k then s
    else
      let first := s.power.trip.isEmpty
      let s := { s with power := { s.power with trip := k :: s.power.trip } }
      let tj := ((s.baseTj.getD 0) % 65536).toNat
      if first then
        s.raise 0x0302 sevFailed powerUnit [(8, s.power.trip.foldl (fun n i => n + 2 ^ i) 0), (16, tj), (72, 0)] .unit (some islWarden)
      else s)

/-- R876 and chapter 20: a phase trips and drops out until the next boot. -/
def execPhaseOvercurrent (phase : Nat) (s : State) : Host.Outcome State Fault Refusal :=
  .next (if phase ≥ 96 || s.power.tripped.contains phase then s
    else { s with power := { s.power with tripped := phase :: s.power.tripped } })

/-- R903: the level of a compute die's DTHERM_N; THERM_ALERT_N follows at the next loop (R892). -/
def execDthermNAssert (d : Nat) (level : Bool) (s : State) : Host.Outcome State Fault Refusal :=
  .next (if d ≥ 4 then s else s.setDie d { s.die d with dtherm := level })

/-! ### Telemetry (R898-R900) -/

/-- Tj of an island's sensor, if one stands in it, and whether it is absent. -/
def State.islandTj (s : State) (i : Nat) : Nat × Bool :=
  match (Config.islandSensor i).bind fun n => s.power.base.get? n with
  | some x => ((x.value % 65536).toNat, decide (x.missed > 3))
  | none => (0x8000, false)

/-- One record: kind, flags, number, Tj, clock or voltage; its place gives power and energy. -/
def State.record (s : State) (place kind flags number tj clock : Nat) : Bytes :=
  toLE 1 kind ++ toLE 1 flags ++ toLE 2 number ++ toLE 2 tj ++ toLE 2 clock ++ toLE 4 (s.meanPower place) ++ toLE 4 0
    ++ toLE 8 ((s.power.energy[place]?).getD 0 / 100) ++ toLE 8 0

/-- The buffer of Table 20-7. A phase that tripped, or that VIN_IVR stopped, gives no output (R991). -/
def State.telemetry (s : State) : Bytes :=
  let out := fun us => natOf (us.any fun u => !s.inService u)
  let phaseMv := fun p => if s.power.tripped.contains p || s.boot.ivrStopped then 0 else s.railOutput (phaseRail p)
  let islands := (List.range 185).flatMap fun i =>
    let (tj, gone) := s.islandTj i
    s.record i 0 (out (unitsOfIsland i) + 2 * natOf gone) i tj (s.islandMHz i)
  let nearStacks := (List.range 8).flatMap fun k =>
    let x := s.power.stackTjs.get {} k
    s.record (185 + k) 1 (out [stackUnit k] + 2 * natOf x.absent) (stackUnit k) (x.tj.getD 0x8000) (s.refreshMultiplier k)
  let dies := (List.range 4).flatMap fun d =>
    let x := s.power.dieTjs.get {} d
    s.record (193 + d) 2 (out [dieUnit d] + 2 * natOf x.absent) (dieUnit d) (x.tj.getD 0x8000) (s.die d).clockPct
  let clusters := (List.range 256).flatMap fun c =>
    s.record (197 + c) 3 (out [clusterUnit c]) (clusterUnit c) 0x8000 (s.die (c / 64)).clockPct
  let phases := (List.range 96).flatMap fun p =>
    let off := s.power.tripped.contains p
    s.record (453 + p) 4 (4 * natOf off) p 0x8000 (phaseMv p)
  toLE 8 s.power.loopAt ++ toLE 2 549 ++ toLE 2 32 ++ toLE 20 0 ++ islands ++ nearStacks ++ dies ++ clusters ++ phases

/-! ### Kymal group 0x16 -/

def powerQueryCmd : Cmd where
  opcode := 0x1601
  primary := .none
  inL := true
  urgent := true
  bad _ k := badIf (k.ind && k.bufLen < 17600) 120
  effect s k :=
    { state := s
      result := toLE 2 s.pool ++ toLE 2 s.reservedTokens ++ toLE 4 (s.lastPower 549)
        ++ toLE 2 ((s.baseTj.getD 0) % 65536).toNat ++ toLE 2 s.hottestStack ++ toLE 4 0 ++ toLE 8 s.prog.tokenWaits
      data := if k.ind then s.telemetry else [] }

def execPowerQuery (k : KCmd) (s : State) : Host.Outcome State Fault Refusal := .next (s.kymal powerQueryCmd k)

/-- A unit whose home island ISLAND_CLOCK_SET may set (R173). -/
def clockable (u : Nat) : Bool :=
  match homeIslands u with
  | [i] => decide (i ≤ islXlat) && !(unitClass u == 0x06 || unitClass u == 0x0D)
  | _ => false

/-- R172, R173, R197: the loop sets the clock (R888, R890); the reply gives the lower of the command and the order. -/
def islandClockSetCmd : Cmd where
  opcode := 0x1602
  primary := .res
  lease := .excl
  vf := false
  layout := [(16, 2, 0xFFFF), (18, 2, 0xFFFF)]
  ref _ k := k.u16 16
  bad _ k :=
    let nom := nominalMHz (stampIsland (k.u16 16))
    if !(unitValid (k.u16 16) && clockable (k.u16 16)) then [16]
    else badIf (k.u16 18 != 0 && (k.u16 18 > nom || 4 * k.u16 18 < nom)) 18
  also _ k := (unitsOfIsland (stampIsland (k.u16 16))).filter (· != k.u16 16)
  check7 s k := (unitsOfIsland (stampIsland (k.u16 16))).findSome? fun u => leaseFail s u k.master .excl false
  effect s k :=
    let i := stampIsland (k.u16 16)
    let isl := { s.island i with setMHz := if k.u16 18 = 0 then none else some (k.u16 18) }
    let s := { s with clk := { s.clk with islands := s.clk.islands.set i isl } }
    { state := s, result := toLE 2 (s.islandTarget i) }

def execIslandClockSet (k : KCmd) (s : State) : Host.Outcome State Fault Refusal := .next (s.kymal islandClockSetCmd k)

end Sys2Proof.Machine
end

