-- ==== Sys2Proof/Machine/Queries.lean ====
section
/-! DEFINITION. HEALTH_READ, UNIT_QUERY and TEST_RESULT: what the block reports of its units (chapters 04, 07-23). -/

namespace Sys2Proof.Machine

/-! ### States as reported (R1024, Table 4-4) -/

/-- Classes that take unit states of their own (R943). -/
def ownStates (cls : Nat) : Bool := [0x01, 0x03, 0x04, 0x05, 0x06, 0x07, 0x08, 0x09, 0x0A].contains cls

/-- A resource that is not a unit is configured, armed or present. -/
def State.refPresent (s : State) (ref : Nat) : Bool :=
  let id := refId ref
  match refKind ref with
  | 1 => (s.sluice? id).isSome
  | 3 => (s.orders.get {} id).armed
  | 4 => s.xlat.spaces.has id
  | 5 => s.cohort.outWin.has id
  | 6 => s.cohort.inWin.has id
  | _ => true

/-- UNIT_QUERY bytes 24-27. -/
def State.reportedState (s : State) (ref : Nat) : Nat :=
  let u := refId ref
  let busy := s.inTransition ref
  match refKind ref with
  | 0 =>
    if (absent s ref).isSome then stateDetail 1 0xFFFF
    else if ownStates (unitClass u) || unitClass u = 0x0B || unitClass u = 0x0C then stateDetail 1 (unitCode (s.unitState u))
    else stateDetail 2 (if busy then 3 else 1)
  | 2 => stateDetail 3 (((s.inf.caddies.get? u).map (·.state)).getD 0)
  | _ => stateDetail 2 (if busy then 3 else natOf (s.refPresent ref))

/-! ### Bytes 40-63 of each kind -/

namespace State

/-- Table 7-7, R921. -/
def queryPolder (s : State) (p : Polder) : Bytes :=
  [p.tier, p.interleave, p.granule, p.strength, natOf p.fresh, p.key, p.sluice.getD 0xFF,
    if p.tier = 0 && p.interleave ≤ 1 then p.stack else 0xFF].map (BitVec.ofNat 8)
    ++ toLE 4 p.size ++ toLE 4 ((p.conv.map (·.boundary)).getD 0xFFFFFFFF) ++ toLE 1 (natOf (s.isKeyless p))

def querySluice (s : State) (i : Nat) : Bytes :=
  let q := s.mem.sluices.get {} i
  toLE 4 q.tier ++ toLE 4 q.rate ++ toLE 4 q.burst ++ toLE 4 (s.mem.polders.count fun _ p => p.sluice == some i)
    ++ toLE 8 q.shortfall

def queryStack (s : State) (k : Nat) : Bytes :=
  (s.mem.nearStacks.get {} k).sensors.flatMap (toLE 2) ++ toLE 1 (s.refreshMultiplier k) ++ toLE 1 (natOf (s.stackFailed k))

def queryNear (s : State) (n : Nat) : Bytes :=
  toLE 2 (s.piecesUsed n) ++ toLE 2 (s.piecesFree n) ++ toLE 1 (s.capPct n) ++ toLE 1 (s.refreshMultiplier (n / 16))

def queryBoard (s : State) (b : Nat) : Bytes :=
  let c := s.chan (128 + b)
  toLE 2 (s.piecesUsed (128 + b)) ++ toLE 2 (s.piecesFree (128 + b)) ++ toLE 2 (10 * c.rate) ++ toLE 1 c.poison.length
    ++ toLE 1 c.deviceTj

/-- Table 8-2. -/
def querySlice (s : State) (n : Nat) : Bytes :=
  let x := s.slice n
  toLE 1 (15 - x.scratch) ++ toLE 3 (((List.range 4).filter x.assigned.has).foldl (fun m q => m + 2 ^ q) 0)
    ++ toLE 4 x.lines.length ++ toLE 4 (x.lines.filter (·.dirty)).length
    ++ toLE 4 (x.badWords.length + (x.lines.map fun l => l.poison.length).foldl (· + ·) 0) ++ toLE 8 x.walks

/-- Channels of an engine that meet a condition, as a bit map. -/
def chanMap (s : State) (e : Nat) (p : PumpChan → Bool) : Nat :=
  ((List.range 16).filter fun c => p (s.pchan (16 * e + c))).foldl (fun m c => m + 2 ^ c) 0

/-- A translation record waits for a page request or a driver (R447, R448). -/
def isParked (s : State) (x : PumpChan) : Bool :=
  (x.ringJob :: x.descs.map (·.job)).any fun j => match j with
    | some i => ((s.xlat.jobs.get? i).map fun r => r.parked.isSome).getD false
    | none => false

/-- Table 11-9. -/
def queryPump (s : State) (e : Nat) : Bytes :=
  let eng := s.pumps.engines.get {} e
  toLE 2 (s.chanMap e fun x => decide (x.kind = .host)) ++ toLE 2 (s.chanMap e fun x => x.halt.isSome)
    ++ toLE 2 (s.chanMap e s.isParked)
    ++ toLE 2 (s.chanMap e fun x => match x.kind with | .program _ => true | _ => false)
    ++ toLE 8 eng.completed ++ toLE 8 eng.quiet

/-- Table 12-12. -/
def queryCaddy (s : State) (i : Nat) : Bytes :=
  match s.inf.caddies.get? i with
  | some c => toLE 1 c.state ++ toLE 1 (natOf c.signed) ++ toLE 2 ((c.home.map fun h => polderUnit h.1).getD 0xFFFF)
    ++ toLE 4 c.version ++ fitBytes 16 c.signer
  | none => toLE 2 0 ++ toLE 2 0xFFFF

def queryInfuser (s : State) (u : Nat) : Bytes :=
  let x := s.infUnit u
  let runs := natOf ((x.jobs.head?.map (·.started)).getD false)
  toLE 1 x.jobs.length ++ toLE 1 runs ++ toLE 2 (40 * runs) ++ toLE 4 0 ++ toLE 8 x.inBytes ++ toLE 8 x.outBytes

/-- Table 13-9. -/
def queryReducer (s : State) (n : Nat) : Bytes :=
  let r := s.gath.reducers.get {} n
  toLE 8 r.applied ++ toLE 8 r.failed ++ toLE 8 r.ordered

/-- Table 13-9; the energy is what no rule computes, a free value while any block was skipped (DESIGN CHOICE, log entry 27). -/
def queryGather (s : State) (e : Nat) : Bytes :=
  let g := s.gath.engines.get {} e
  let lanes := (List.range 64).map (64 * e + ·)
  let bound := lanes.filter fun l => (s.boundTo (.gather l) 0).isSome
  let running := lanes.filter fun l => !(s.gath.lanes.get {} l).jobs.isEmpty
  toLE 2 bound.length ++ toLE 2 running.length ++ toLE 4 (g.slots / 65536) ++ toLE 4 (g.skipped / 65536) ++ toLE 4 g.late
    ++ toLE 8 (if g.avoided = 0 then 0 else s.freeNat)

/-- Table 14-10. -/
def querySeq (s : State) (q : Nat) : Bytes :=
  let x := s.sq q
  let code := match x.state with
    | .idle | .armed => 0
    | .running => if x.wait.isSome then 2 else 1
    | .trapped => 3
    | .stopped => 4
  toLE 4 (if x.state = .idle then 0 else x.program) ++ toLE 1 code ++ toLE 1 x.rank ++ toLE 2 x.held ++ toLE 4 x.slots
    ++ toLE 4 x.late ++ toLE 4 (min (x.waited / 1000) (2 ^ 32 - 1)) ++ toLE 4 x.hazards

/-- Table 17-9. -/
def queryPort (s : State) (p : Nat) : Bytes :=
  let x := s.lport p
  let trunk := match s.trunkOf p with
    | none => 0xFF
    | some t => match s.link.partners.get? t with
      | some who => if s.portUp p && who != x.identity then 0xFE else t
      | none => t
  toLE 1 x.state ++ toLE 1 trunk ++ toLE 1 x.member ++ toLE 1 (min x.discarded 255)
    ++ toLE 2 (x.retrains.filter fun t => decide (s.now < t + 3600000000000)).length ++ toLE 2 (min x.refused 65535)
    ++ fitBytes 16 (if x.identity.isEmpty then [] else x.identity)

/-- Table 18-10. -/
def queryWarden (s : State) : Bytes :=
  let c := s.cohort
  toLE 1 c.member ++ toLE 1 c.size ++ toLE 1 c.leader
    ++ toLE 1 (natOf c.steering + 2 * natOf (c.steering && c.leaderPort == 0xFFFF))
    ++ toLE 4 (c.correction % (2 ^ 32 : Int)).toNat ++ toLE 8 c.epoch.toNat ++ toLE 8 (c.estimate % (2 ^ 64 : Int)).toNat

/-- Table 20-8. -/
def queryPower (s : State) : Bytes :=
  toLE 2 s.pool ++ toLE 2 s.reservedTokens ++ toLE 2 s.heldTokens ++ toLE 2 s.power.reduction ++ toLE 4 (s.meanPower 550)
    ++ toLE 1 s.power.conditions ++ toLE 1 s.power.tripped.length
    ++ toLE 2 ((s.baseTj.getD 0x8000) % (65536 : Int)).toNat ++ toLE 8 s.power.loops

/-- Bytes 40-63 by kind; a cluster reports its discarded groups (R721, DEDUCED, log entry 28). -/
def queryKind (s : State) (ref : Nat) : Bytes :=
  let u := refId ref
  let n := unitIndex u
  match refKind ref with
  | 0 =>
    match unitClass u with
    | 0x01 => s.querySlice n
    | 0x02 => s.queryStack n
    | 0x03 => s.queryNear n
    | 0x04 => s.queryBoard n
    | 0x05 => s.queryPort n
    | 0x06 => toLE 8 (s.port n).discarded
    | 0x08 => s.queryPump n
    | 0x09 => s.queryInfuser n
    | 0x0A => s.queryGather n
    | 0x0B => s.querySeq n
    | 0x0C => s.queryReducer n
    | 0x0D => match s.polder? n with | some p => s.queryPolder p | none => []
    | 0x0F => s.queryWarden
    | 0x11 => s.queryPower
    | _ => []
  | 1 => s.querySluice u
  | 2 => s.queryCaddy u
  | _ => []

end State

def unitQueryCmd : Cmd where
  opcode := 0x1901
  primary := .none
  inL := true
  urgent := true
  layout := [(16, 4, 2 ^ 32 - 1)]
  bad _ k := badRef k
  names _ k := [k.u32 16]
  effect s k :=
    let ref := k.u32 16
    let gone := refKind ref = 0 && (absent s ref).isSome
    let shared := (s.holders ref).filter fun l => !l.excl
    { state := if refKind ref = 0 && unitClass ref = 0x0A then s.tickFree else s
      result := toLE 4 (s.reportedState ref)
        ++ (if gone then [] else toLE 2 ((s.exclHolder ref).getD 0xFFFF) ++ toLE 2 shared.length ++ toLE 2 (s.assignedFn ref)
          ++ toLE 6 0 ++ s.queryKind ref) }

/-- R324, R362, R528, R576, R623, R663, R806, R840, R900, R921, R1024. -/
def execUnitQuery (k : KCmd) (s : State) : Host.Outcome State Fault Refusal := .next (s.kymal unitQueryCmd k)

/-- Corrected, check-only, uncorrectable, CRC retries, remap entries of a unit (Table 4-16). -/
def State.health (s : State) (u : Nat) : List Nat :=
  let n := unitIndex u
  let ofChan := fun (c : Channel) => [c.corrected, c.checkOnly, c.uncorrectable, c.crcRetries, c.remaps.length]
  match unitClass u with
  | 0x01 => let x := s.slice n; [x.corrected, x.checkOnly, x.uncorrectable, 0, 0]
  | 0x03 => ofChan (s.chan n)
  | 0x04 => ofChan (s.chan (128 + n))
  | 0x05 => let x := s.lport n; [x.corrected, x.checkOnly, x.uncorrectable, x.replays, 0]
  | 0x06 => [0, 0, 0, (s.port n).retries, 0]
  | _ => [0, 0, 0, 0, 0]

def healthReadCmd : Cmd where
  opcode := 0x1803
  primary := .none
  inL := true
  urgent := true
  layout := [(16, 2, 0xFFFF)]
  bad _ k := badUnit (k.u16 16) 16 fun _ => true
  names _ k := [k.u16 16]
  check6 s k := absent s (k.u16 16)
  effect s k :=
    let h := s.health (k.u16 16)
    { state := s, result := (h.take 4).flatMap (toLE 8) ++ (h.drop 4).flatMap (toLE 2) }

/-- R311, R355, R402, R718, R806. -/
def execHealthRead (k : KCmd) (s : State) : Host.Outcome State Fault Refusal := .next (s.kymal healthReadCmd k)

def testResultCmd : Cmd where
  opcode := 0x1A02
  primary := .none
  vf := false
  inL := true
  urgent := true
  layout := [(16, 2, 0xFFFF)]
  bad _ k := badUnit (k.u16 16) 16 fun _ => true
  check6 s k := (absent s (k.u16 16)).or (if s.svc.results.has (k.u16 16) then none else failState 2 0)
  effect s k :=
    match s.svc.results.get? (k.u16 16) with
    | none => { state := s }
    | some r =>
      { state := s
        result := toLE 1 r.verdict ++ toLE 1 r.test ++ toLE 2 0 ++ toLE 4 r.failCount ++ toLE 8 r.signature
          ++ toLE 8 r.expected ++ toLE 8 r.stamp }

/-- R977, R987. -/
def execTestResult (k : KCmd) (s : State) : Host.Outcome State Fault Refusal := .next (s.kymal testResultCmd k)

end Sys2Proof.Machine
end

