-- ==== Sys2Proof/Machine/Security.lean ====
section
/-! DEFINITION. Key slots, debug unlock, glitches and entropy (chapter 21), and Kymal group 0x1B. -/

namespace Sys2Proof.Machine

namespace State

/-- Running rekeys end with the final ST_STATE, scope 2 and code 0: their slots are empty now (*Security*, Corners). -/
def endRekeys (s : State) : State :=
  let polders := s.mem.polders.map fun _ (p : Polder) =>
    match p.conv with
    | some c => if c.rekey then { p with conv := none } else p
    | none => p
  let f : Finish := { status := stState, detail := stateDetail 2 0 }
  { s with
    mem := { s.mem with polders := polders }
    kym := { s.kym with running := s.kym.running.map fun r =>
      if r.opcode = 0x1005 && r.outcome.isNone then { r with outcome := some f } else r } }

/-- A reset that reaches the sealed island: slots and sealed cells zeroed (R907, R261): the keys of a link read zero, so that its next tag
fails; debug locked (R939), the nonce and the DRBG gone, every IDE stream Insecure and every secured SPDM session ended (R928). -/
def wipeSealed (s : State) : State :=
  let ide := s.host.ide.map fun _ (i : IdeStream) => { i with state := .insecure, keys := {} }
  let ports := s.link.ports.map fun _ (p : LinkPort) => { p with keys := p.keys.map fun _ => {}, ephemeral := none }
  { s with
    sealed := { s.sealed with slots := {}, unlocked := none, nonce := none, entropyFailed := false, reservedKey := none }
    host := { s.host with ide := ide, spdmSession := false, spdmHandshake := false }
    link := { s.link with ports := ports } }

/-- The warden can report: its firmware runs, on a running clock, and it is not halted or restarting. -/
def canReport (s : State) : Bool :=
  decide (s.boot.step ≥ 9) && !s.islandHalted islWarden
    && (s.kym.warden == .running || s.kym.warden == .activating)

/-- One EV_SEAL_RESET for the latched resets, with the TBASE of the first (R927, Table 21-4). -/
def reportSeal (s : State) : State :=
  if s.sealed.resets = 0 || !s.canReport then s
  else
    let x := s.sealed
    let e : Event := { code := 0x1001, severity := sevFailed, unit := sealedUnit, stamp := x.firstAt, cls := 0x10
                       detail := packBits [(3, x.detectors), (5, 0), (8, x.loadedAtFirst), (16, min x.resets 65535)] }
    { s with ev := s.collected e, sealed := { x with resets := 0, detectors := 0, loadedAtFirst := 0, firstAt := 0 } }

end State

/-- R905, R907, R917, R925-R928, Table 21-2: detectors trip once they are armed at step 5 of boot; the sealed island
zeroes its keys, keeps the reserved seed, reruns the start-up health tests and derives the reserved key again. -/
def execGlitchDetect (detectors : Nat) (testsOk : Bool) (s : State) : Host.Outcome State Fault Refusal :=
  .next (if detectors % 8 = 0 || decide (s.boot.step < 5) then s
    else
      let loaded := s.sealed.slots.cells.length
      let s := s.wipeSealed.endRekeys
      let x := s.sealed
      let x := if x.resets = 0 then { x with loadedAtFirst := loaded, firstAt := s.now } else x
      let x := { x with resets := x.resets + 1, detectors := x.detectors ||| (detectors % 8), entropyFailed := !testsOk
                        reservedKey := x.seed.map deriveReserved }
      State.reportSeal { s with sealed := x })

/-- R908, R910: a continuous health test fails and the start-up tests rerun up to three times. If none passes, the
source stays failed until the next reset of the sealed island. -/
def execEntropyHealthFail (passes : Bool) (s : State) : Host.Outcome State Fault Refusal :=
  .next (if passes || decide (s.boot.step < 7) then s else { s with sealed := { s.sealed with entropyFailed := true } })

/-- The reason EV_WARDEN_INTERNAL gives while the entropy source gives no output (R910, R89). -/
def needsEntropy (s : State) (k : KCmd) : Nat := if s.sealed.entropyFailed then 2 else k.answers.internal

/-- A polder selects the slot, or a rekey under way will select it. -/
def State.slotSelected (s : State) (n : Nat) : Bool :=
  (s.mem.polders.any fun _ p => p.key == n || (match p.conv with | some c => c.newKey == n | none => false))
    || s.kym.running.any fun r => r.opcode == 0x1005 && r.outcome.isNone && r.cmd.u8 23 == n

/-- Two keys of 256 bits drawn from the DRBG until they differ, the data key low and the tweak key high (R911): two free
values, of which the second gives the tweak key's distance from the data key (DESIGN CHOICE, log entry 70). -/
def State.drawKeys (s : State) : Nat :=
  let data := s.freeNat % 2 ^ 256
  let tweak := (data + 1 + Config.freeNat (s.freeCtr + 1) % (2 ^ 256 - 1)) % 2 ^ 256
  data + 2 ^ 256 * tweak

def keyGenerateCmd : Cmd where
  opcode := 0x1B01
  primary := .res
  lease := .excl
  vf := false
  layout := [(16, 1, 0xFF)]
  ref _ _ := sealedUnit
  bad _ k := badIf (k.u8 16 > 63) 16
  denied s _ := s.sealed.unlocked.isSome
  check6 s k :=
    if s.sealed.slots.has (k.u8 16) then failState 2 1 else if s.slotSelected (k.u8 16) then failState 2 2 else none
  internal := needsEntropy
  effect s k := { state := State.tickFree (State.tickFree
    { s with sealed := { s.sealed with slots := s.sealed.slots.set (k.u8 16) s.drawKeys } }) }

/-- R909, R911, R912, R922, R940. -/
def execKeyGenerate (k : KCmd) (s : State) : Host.Outcome State Fault Refusal := .next (s.kymal keyGenerateCmd k)

def keyDestroyCmd : Cmd where
  opcode := 0x1B02
  primary := .res
  lease := .excl
  vf := false
  layout := [(16, 1, 0xFF)]
  ref _ _ := sealedUnit
  bad _ k := badIf (k.u8 16 > 63) 16
  check6 s k := if s.slotSelected (k.u8 16) then failState 2 2 else none
  effect s k := { state := { s with sealed := { s.sealed with slots := s.sealed.slots.erase (k.u8 16) } } }

/-- R913. -/
def execKeyDestroy (k : KCmd) (s : State) : Host.Outcome State Fault Refusal := .next (s.kymal keyDestroyCmd k)

def debugChallengeCmd : Cmd where
  opcode := 0x1B03
  primary := .res
  lease := .excl
  vf := false
  inL := true
  ref _ _ := sealedUnit
  internal := needsEntropy
  effect s _ :=
    let nonce := (List.range 32).map fun i => Config.freeByte (s.freeCtr + i)
    { state := { s with freeCtr := s.freeCtr + 32, sealed := { s.sealed with nonce := some (nonce, s.now) } }
      result := nonce }

/-- R909, R936. -/
def execDebugChallenge (k : KCmd) (s : State) : Host.Outcome State Fault Refusal := .next (s.kymal debugChallengeCmd k)

/-- 60 s in nanoseconds (R936). -/
def nonceLife : Nat := 60000000000

/-- R936: 60 s after its challenge the nonce serves no more. -/
def execNonceExpiry (s : State) : Host.Outcome State Fault Refusal :=
  .next (match s.sealed.nonce with
    | some n => if s.now < n.2 + nonceLife then s else { s with sealed := { s.sealed with nonce := none } }
    | none => s)

/-- The ASCII bytes "MOLYODBG". -/
def tokenMagic : Bytes := [0x4D, 0x4F, 0x4C, 0x59, 0x4F, 0x44, 0x42, 0x47]

/-- The token verifies against Table 21-8 (R937): layout, serial, nonce still in its 60 s, and signature under the debug key. -/
def State.tokenOk (s : State) (t : Bytes) : Bool :=
  let nonceOk := match s.sealed.nonce with
    | some n => (t.drop 24).take 32 == n.1 && decide (s.now ≤ n.2 + nonceLife)
    | none => false
  decide (t.length ≥ 160) && t.take 8 == tokenMagic && fieldAt t 8 2 == 1 && decide (fieldAt t 10 2 < 8)
    && fieldAt t 12 4 == 0 && fieldAt t 16 8 == s.flash.serial && fieldAt t 56 8 == 0 && nonceOk
    && ecdsaVerify s.flash.debugKey (sha384 (t.take 64)) ((t.drop 64).take 96)

/-- Every quarter of every slice is zeroed (R360): cached lines go without write-back, the scratchpads read zero. -/
def State.zeroBasin (s : State) : State :=
  let slices := s.basin.map fun _ (x : Slice) => { x with lines := [], badWords := [] }
  let inside := fun a => decide (scratchBase ≤ a) && decide (a < scratchBase + 64 * 0xC00000)
  { s with basin := slices, mem := { s.mem with cells := s.mem.cells.filter fun c => !inside c.1 } }

def debugUnlockCmd : Cmd where
  opcode := 0x1B04
  primary := .res
  lease := .excl
  vf := false
  inL := true
  ref _ _ := sealedUnit
  bad _ k := badIf (if k.isSideband then !k.inl || decide (k.ext.length > 512) else !k.ind) 2
    ++ badIf (k.ind && decide (k.bufLen > 512)) 120
  effect s k :=
    let t := k.ext
    let ok := s.tokenOk t
    let s := ({ s with sealed := { s.sealed with slots := {} } } : State).endRekeys.zeroBasin
    let x := s.sealed
    let scope := fieldAt t 10 2 % 8
    let s : State := { s with sealed := { x with nonce := none, attempts := x.attempts + 1
                                                 unlocked := if ok then some scope else x.unlocked } }
    let s := s.raise 0x1002 sevNotice sealedUnit [(1, natOf ok), (3, scope)] .unit (some islWarden)
    if ok then { state := s } else { state := s.bumpGen sealedUnit, fail := some { status := stDenied } }

/-- R177, R360, R937, R938, R941: the slots are wiped and the Basin zeroed before the token is verified; one that is
refused has changed the sealed island too (R104). -/
def execDebugUnlock (k : KCmd) (s : State) : Host.Outcome State Fault Refusal := .next (s.kymal debugUnlockCmd k)

end Sys2Proof.Machine
end

