-- ==== Sys2Proof/Machine/Drain.lean ====
section
/-! DEFINITION. Draining and returning units, and moving a channel's memory (chapter 22). -/

namespace Sys2Proof.Machine

/-! ### What UNIT_DRAIN and UNIT_RETURN refuse (R943, R946) -/

def badAnyUnit (k : KCmd) : List Nat := badUnit (k.u16 16) 16 fun _ => true

/-- A unit of a class without unit states (R943). -/
def noStates (u : Nat) : Option Fail := if ownStates (unitClass u) then none else failState 1 5

namespace State

def clusterOfCaddy (s : State) (c : Nat) : Bool := (s.port c).caddy.isSome

/-- Other channels of the tier that take pieces. -/
def otherChannels (s : State) (n : Nat) : List Nat :=
  (if n < 128 then List.range 128 else (List.range 12).map (128 + ·)).filter fun m => m != n && s.takesPieces m && !s.chanLost m

/-- The conditions of Table 22-2. -/
def drainRefused (s : State) (u : Nat) : Option Fail :=
  let n := unitIndex u
  match unitClass u with
  | 0x01 => if (s.sq n).caddy.isSome || !(s.slice n).assigned.cells.isEmpty then failState 3 3 else none
  | 0x06 => if s.clusterOfCaddy n then failState 3 3 else none
  | 0x07 => if (List.range 64).any fun i => s.clusterOfCaddy (64 * n + i) then failState 3 3 else none
  | 0x08 => if (List.range 16).any fun c => (match (s.pchan (16 * n + c)).kind with | .program _ => true | _ => false)
      then failState 2 2 else none
  | _ => none

/-- Free pieces elsewhere are fewer than those to move (Table 22-2). -/
def noRoomElsewhere (s : State) (n : Nat) : Bool :=
  decide (((s.otherChannels n).map s.piecesFree).foldl (· + ·) 0 < s.piecesUsed n + s.reservedOn n)

/-! ### Draining (R947) -/

/-- A cluster begins to drain: every stream binding goes (R506). -/
def drainCluster (s : State) (c : Nat) : State :=
  let s := s.changeUnit (clusterUnit c) .draining byCommand
  (List.range 16).foldl (fun s i => s.unbindEntry c (i / 2) (i % 2)) s

/-- Commits every open entry of a channel (Table 9-5). -/
def commitAll (s : State) (n : Nat) : State := (s.chan n).entries.foldl (fun s e => s.commit n e.page) s

/-- A unit whose island clock has stopped for good leaves DRAINING at once; what it held ends without completion (R949). -/
def forceOut (s : State) (u : Nat) : State :=
  let n := unitIndex u
  let s := match unitClass u with
    | 0x01 => s.dropLines n (fun _ => true) false
    | 0x03 => s.setChan n { s.chan n with entries := [] }
    | 0x04 => s.setChan (128 + n) { s.chan (128 + n) with entries := [] }
    | 0x06 => s.setPort n { s.port n with requests := [], ctrl := [], txq := [], fetch := {} }
    | 0x08 => (List.range 16).foldl (fun s c => s.closeChan (16 * n + c)) s
    | 0x09 => s.setInfUnit n { s.infUnit n with jobs := [] }
    | 0x0A => { s with gath := { s.gath with lanes := s.gath.lanes.keep fun l _ => l / 64 != n } }
    | _ => s
  (s.changeUnit u .outOfService byForce).endRunning 0x1902 u { status := stOk }

/-- The clock of one of the unit's islands has stopped (R949). -/
def clockStopped (s : State) (u : Nat) : Bool := (homeIslands u).any s.islandStopped

/-- What a unit does on becoming DRAINING. -/
def beginDrain (s : State) (u : Nat) : State :=
  let n := unitIndex u
  let on := fun (s : State) => s.changeUnit u .draining byCommand
  match unitClass u with
  | 0x01 => (on s).dropLines n (fun _ => true) true
  | 0x03 => (on s).commitAll n
  | 0x04 => (on s).commitAll (128 + n)
  | 0x05 =>
    let s := (on s).leaveActive n leaveDrain 7
    let s := match (s.lport n).work with
      | some (.retrain _ _ _ _ _) => (s.setLport n (s.lport n).untrained).releaseRetrain n
      | _ => s
    s.changeUnit u .outOfService byCommand
  | 0x06 => s.drainCluster n
  | 0x07 => (List.range 64).foldl (fun s i => if s.inService (clusterUnit (64 * n + i)) then s.drainCluster (64 * n + i) else s) (on s)
  | _ => on s

end State

def unitDrainCmd : Cmd where
  opcode := 0x1902
  primary := .res
  lease := .excl
  accepted := true
  vf := false
  layout := [(16, 2, 0xFFFF)]
  ref _ k := k.u16 16
  bad _ k := badAnyUnit k
  check6 s k :=
    let u := k.u16 16
    (absent s u).or ((noStates u).or (match s.unitState u with
      | .inService | .draining => s.drainRefused u
      | x => failState 1 (unitCode x)))
  check11 s k :=
    let n := unitIndex (k.u16 16)
    let no : Option Fail := some { status := stNoResource }
    match unitClass (k.u16 16) with
    | 0x03 => if s.noRoomElsewhere n then no else none
    | 0x04 => if s.noRoomElsewhere (128 + n) then no else none
    | _ => none
  effect s k :=
    let u := k.u16 16
    if s.clockStopped u then
      { state := (s.changeUnit u .draining byCommand).forceOut u, outcome := some { status := stOk } }
    else { state := s.beginDrain u, outcome := if unitClass u = 0x05 then some { status := stOk } else none }

/-- R943, R946, R947. -/
def execUnitDrain (k : KCmd) (s : State) : Host.Outcome State Fault Refusal := .next (s.kymal unitDrainCmd k)

namespace State

/-- The end condition of Table 22-2. -/
def drained (s : State) (u : Nat) : Bool :=
  let n := unitIndex u
  match unitClass u with
  | 0x01 => (s.slice n).lines.isEmpty && !s.writingBack n
  | 0x03 => decide ((s.chan n).used = 0) && (s.chan n).entries.isEmpty
  | 0x04 => decide ((s.chan (128 + n)).used = 0) && (s.chan (128 + n)).entries.isEmpty && s.reservedOn (128 + n) == 0
  | 0x05 => true
  | 0x06 => (s.port n).requests.isEmpty && (s.port n).fetch.unacked.isEmpty
  | 0x07 => (List.range 64).all fun i => s.unitState (clusterUnit (64 * n + i)) == .outOfService
  | 0x08 => (List.range 16).all fun c =>
    let x := s.pchan (16 * n + c)
    x.words.isEmpty && x.descs.all fun d => !d.dispatched || d.completed
  | 0x09 => (s.infUnit n).jobs.isEmpty
  | 0x0A => (List.range 64).all fun l => (s.gath.lanes.get {} (64 * n + l)).jobs.isEmpty
  | _ => false

/-- The host channels of an engine close; the functions that opened them (R168, R951). -/
def closeEngine (s : State) (e : Nat) : State × List Nat :=
  let keys := (List.range 16).map (16 * e + ·)
  let fns := ((keys.filter s.isHostChan).map fun k => (s.pchan k).fn).eraseDups
  (keys.foldl (fun s k => s.closeChan k) s, fns)

/-- EV_UNIT_STATE for a function whose channels a drain closed (R951). -/
def tellClosed (s : State) (u f : Nat) : State :=
  s.raise 0x1101 sevInfo u [(3, 1), (3, 2), (2, byCommand), (16, f)] (.fn f)

/-- A drain ends: OUT_OF_SERVICE and the final reply. -/
def endDrain (s : State) (u cause : Nat) : State :=
  let (s, fns) := if unitClass u = 0x08 then s.closeEngine (unitIndex u) else (s, [])
  let s := s.changeUnit u .outOfService cause
  let s := fns.foldl (fun s f => s.tellClosed u f) s
  s.endRunning 0x1902 u { status := stOk }

/-- The UNIT_DRAIN that put the unit in DRAINING runs: its own, or that of a cluster's compute die (R27). -/
def drainRuns (s : State) (u : Nat) : Bool :=
  s.runningOn 0x1902 u || (unitClass u == 0x06 && s.runningOn 0x1902 (dieUnit (unitIndex u / 64)))

end State

/-- R945, R947, R951, and the drain's end by Table 22-2. A unit whose UNIT_DRAIN a warden restart or the entry into LOST ended
stays DRAINING until the command is issued again (Table 4-3, R149), and a warden that does not run ends no drain. -/
def execDrainEnd (u : Nat) (s : State) : Host.Outcome State Fault Refusal :=
  .next (if s.unitState u = .draining && ownStates (unitClass u) && s.drained u && s.drainRuns u && s.canReport then
      s.endDrain u byCommand else s)

/-! ### Moving a channel's memory (R952-R955, Table 22-4) -/

namespace State

/-- Poison-list entries of a piece. -/
def listedIn (s : State) (n v : Nat) : List Nat :=
  (s.chan n).poison.filter fun q => decide (pieceOf (if n < 128 then 32 * q else 4096 * q) = some v)

/-- The channel a stripe or slab moves to (R952). -/
def moveTarget (s : State) (n v : Nat) : Option Nat :=
  let room := fun m => decide ((s.chan m).poison.length + (s.listedIn n v).length ≤ 64)
  let others := (s.otherChannels n).filter room
  if n < 128 then
    (s.mostFree (others.filter fun m => m / 16 == n / 16)).or (s.mostFree others)
  else s.mostFree others

/-- Copies one written page of a piece to its new place (Table 22-4). -/
def movePage (s : State) (p : Polder) (n page page' : Nat) : State :=
  match s.mem.pages.get? page with
  | none => s
  | some g =>
    let gone := { s with mem := { s.mem with pages := s.mem.pages.erase page } }
    let put := fun (s : State) (g : Page) => { s with mem := { s.mem with pages := s.mem.pages.set page' g } }
    let dpa := 4096 * page
    if s.freshClear p page || s.keyless p dpa || unwritten g then gone
    else if g.errs.length > tOf g.strength then (put gone g).noteUncorrectable n dpa 4 g.strength
    else
      let side := pageSide p dpa
      let cipher := s.cipherOf { p with strength := side.1, key := side.2, conv := none } page' (s.mem.bytes dpa 4096)
      (put gone { strength := side.1, tail := encodeTail side.1 cipher }).noteDecode n page 4 g

/-- Cells of `[lo, lo + len)`, but for the pages that are not copied, move to `lo'`, where nothing is listed. -/
def moveCells (cells : List Host.Cell) (lo lo' len : Nat) (drop : Nat → Bool) : List Host.Cell :=
  let inside := fun (c : Host.Cell) => decide (lo ≤ c.1) && decide (c.1 < lo + len)
  let rest := cells.filter fun c => !inside c
  let moved := (cells.filter fun c => inside c && !drop (c.1 / 4096)).map fun c => (c.1 - lo + lo', c.2)
  rest.filter (fun c => decide (c.1 < lo')) ++ moved ++ rest.filter fun c => decide (lo' + len ≤ c.1)

/-- Cached lines of the moved piece reach memory at the new place, and leave the Basin (DEDUCED, log entry 29). -/
def moveLines (s : State) (lo lo' len : Nat) : State :=
  let inside := fun (l : Line) => decide (lo ≤ 128 * l.tag) && decide (128 * l.tag < lo + len)
  let all := s.basin.cells.flatMap fun x => x.2.lines.filter inside
  let slices := s.basin.map fun _ (x : Slice) => { x with lines := x.lines.filter fun l => !inside l }
  all.foldl (fun s l => s.writeBack { l with tag := (128 * l.tag - lo + lo') / 128 }) { s with basin := slices }

/-- A request for bytes that have moved goes to their new place. -/
def redirect (lo lo' len : Nat) (row : Instr) : Instr :=
  let moved := fun a => if lo ≤ a && a < lo + len then a - lo + lo' else a
  match row with
  | .narrowRead dpa f => .narrowRead (moved dpa) f
  | .fullRead page f => .fullRead (moved (4096 * page) / 4096) f
  | .fullPageWrite page d => .fullPageWrite (moved (4096 * page) / 4096) d
  | .lineFill who dpa => .lineFill who (moved dpa)
  | .basinAccess r => .basinAccess { r with dpa := moved r.dpa }
  | row => row

/-- The request reaches bytes that have moved, by their device physical address. -/
def reaches (lo len : Nat) (row : Instr) : Bool :=
  let inside := fun a => decide (lo ≤ a) && decide (a < lo + len)
  match row with
  | .narrowRead dpa _ | .lineFill _ dpa => inside dpa
  | .fullRead page _ | .fullPageWrite page _ => inside (4096 * page)
  | .basinAccess r => inside r.dpa
  | _ => false

/-- Requests and writes that waited for a moved piece go on at its new place (chapter 22). -/
def moveWaiting (s : State) (n m lo lo' len : Nat) : State :=
  let c := s.chan n
  let mine := fun (w : HeldWrite) => decide (lo ≤ w.dpa) && decide (w.dpa < lo + len)
  let s := s.setChan n { c with waiting := c.waiting.filter fun r => !reaches lo len r, held := c.held.filter fun w => !mine w }
  let s := (c.held.filter mine).foldl (fun s w => s.writeMem { w with dpa := w.dpa - lo + lo' }) s
  let d := s.chan m
  s.setChan m { d with waiting := d.waiting ++ (c.waiting.filter (reaches lo len)).map (redirect lo lo' len) }

/-- The accesses of a copy count at both channels, the cap applying to them too (R309): each page is read where it stands and
written at its new place, but that a page that reads as FRESH zeros is neither, and one without a key is only written. -/
def countCopy (s : State) (p : Polder) (n m lo len : Nat) : State :=
  if !(decide (n < 128) && ((s.stackOrder n).triggered || (s.stackOrder m).triggered)) then s
  else (List.range (len / 4096)).foldl (fun s k =>
    let page := lo / 4096 + k
    if s.freshClear p page then s else if s.keyless p (4096 * page) then s.activate m else (s.activate n).activate m) s

/-- Copies a piece of a polder, updates the placement table and frees the old place (R953, R954). -/
def movePiece (s : State) (i : Nat) (p : Polder) (v m j' : Nat) (faults : List PageFault) : State :=
  let n := v / 0x1000
  let v' := m * 0x1000 + j'
  let lo := pieceDpa v
  let lo' := pieceDpa v'
  let len := pieceBytes n
  let inside := fun page => decide (lo ≤ 4096 * page) && decide (4096 * page < lo + len)
  let moved := fun page => (4096 * page - lo + lo') / 4096
  let s := ((s.chan n).entries.filter fun e => inside e.page).foldl (fun s e => s.commit n e.page) s
  let s := (faults.filter fun f => inside f.page).foldl (fun s f => s.withFaults f.page f.errs) s
  let drop := fun page => s.freshClear p page || s.keyless p (4096 * page) || !s.mem.pages.has page
  let cells := moveCells s.mem.cells lo lo' len drop
  let s := s.countCopy p n m lo len
  let pages := s.mem.pages.keys.filter inside
  let valid := s.mem.valid.keys.filter inside
  let listed := s.listedIn n v
  let s := pages.foldl (fun s page => s.movePage p n page (moved page)) s
  let bits := valid.foldl (fun (b : Bank Unit) page => (b.erase page).set (moved page) ()) s.mem.valid
  let s := State.writeBitmap { s with mem := { s.mem with cells := cells, valid := bits } } (valid ++ valid.map moved)
  let c := s.chan n
  let s := s.setChan n { c with poison := c.poison.filter fun q => !listed.contains q }
  let s := listed.foldl (fun s q =>
    let w := if n < 128 then 32 else 4096
    s.addPoison m ((w * q - lo + lo') / w) (w * q - lo + lo')) s
  let p := { p with place := p.place.map fun _ w => if w = v then v' else w }
  let s := ((s.usePiece n (v % 0x1000) false).usePiece m j' true).setPolder i p
  (s.moveWaiting n m lo lo' len).moveLines lo lo' len

/-- The reserved area laid over other slabs: the records of the log, the sectors of the FRESH bitmap and the remap tables are
written at their new places, each under the tweak of its place (R915, R947). -/
def relayReserved (s : State) : State :=
  let slabs := s.mem.reserved.cells
  let first := s.ev.logAt + logLimit - s.ev.log.length
  let records := s.ev.log.zipIdx.map fun e => (Config.logPlace slabs ((first + e.2) % logLimit), recordBytes e.1 false)
  let bitmap := ((s.mem.valid.keys.map (· / 256)).eraseDups).map fun i => (Config.bitmapPlace slabs i, s.bitmapSector i)
  let remaps := s.mem.remapCopy.cells.flatMap fun t => t.2.zipIdx.map fun r =>
    (Config.remapPlace slabs t.1 r.2, Config.remapSector r.1.bank r.1.row r.1.spare)
  State.reservedWrite { s with mem := { s.mem with area := {} } } (records ++ bitmap ++ remaps)

/-- A reserved slab moves, with what it holds (R316, R947, R952). -/
def moveReserved (s : State) (n : Nat) : State :=
  match s.mostFree ((s.otherChannels n).filter fun m => decide (s.piecesFree m > 0)) with
  | none => s
  | some m =>
    let r := (s.mem.reserved.set (n - 128) (s.reservedOn n - 1)).set (m - 128) (s.reservedOn m + 1)
    State.relayReserved { s with mem := { s.mem with reserved := r } }

/-- The piece a draining channel moves next: one whose invalidation is under way, else the lowest in use. -/
def nextPiece (s : State) (n : Nat) : Option Nat :=
  match s.svc.moving.get? n with
  | some v => some v
  | none => ((List.range (pieceCount n)).find? fun j => bitOf (s.chan n).used j).map (n * 0x1000 + ·)

end State

/-- R403, R404, R476, R952-R955, R958: first the invalidation of the piece; once it is complete, or at once where no
engine holds it up, the copy and the new placement. -/
def execStripeMove (n : Nat) (faults : List PageFault) (s : State) : Host.Outcome State Fault Refusal :=
  .next (if n ≥ 140 || s.unitState (chanUnit n) ≠ .draining || s.chanLost n || !s.runningOn 0x1902 (chanUnit n) || !s.canReport then s
    else
      match s.nextPiece n with
      | none => if s.reservedOn n = 0 then s else s.moveReserved n
      | some v =>
        match s.moveTarget n v, s.mem.polders.find? fun _ p => p.place.any fun _ w => w == v with
        | some m, some (i, p) =>
          if s.islandHalted (chanIsland n) || s.islandHalted (chanIsland m) || s.capped n || s.capped m then s
          else
            let begun := s.svc.moving.has n
            let s1 := if begun then s else
              State.beginInval { s with svc := { s.svc with moving := s.svc.moving.set n v } } (.piece (pieceDpa v) (pieceBytes n)) (.move v 1)
            if s1.xlat.invals.any fun x => decide (x.cause = .move v 1) then s1
            else
              match s1.freePiece m with
              | none => s1
              | some j' =>
                let s2 := { s1 with svc := { s1.svc with moving := s1.svc.moving.erase n } }
                s2.movePiece i p v m j' faults
        | _, _ => s)

/-! ### Returning (R948, R267, R268) -/

namespace State

/-- A unit reset: the unit's SRAM arrays are zeroed, and what Table 22-2 reloads is reloaded. -/
def unitReset (s : State) (u : Nat) : State :=
  let n := unitIndex u
  match unitClass u with
  | 0x01 =>
    let x := s.slice n
    let s := s.setSlice n { x with lines := [], plru := {}, badWords := [] }
    let s := (List.range 4).foldl (fun s q => if x.isScratch q then s.zeroQuarter n q else s) s
    s.setSq n {}
  | 0x03 =>
    let c := s.chan n
    s.setChan n { c with entries := [], remaps := s.mem.remapCopy.get [] n }
  | 0x04 =>
    let c := s.chan (128 + n)
    s.setChan (128 + n) { c with entries := [], poison := [] }
  | 0x05 => s.setLport n (s.lport n).untrained
  | 0x06 =>
    let p := s.port n
    s.setPort n { dead := p.dead, retries := p.retries, discarded := p.discarded }
  | 0x08 =>
    let s := (s.closeEngine n).1
    { s with xlat := { s.xlat with caches := s.xlat.caches.erase n } }
  | 0x09 => s.setInfUnit n { s.infUnit n with jobs := [] }
  | 0x0A => { s with gath := { s.gath with lanes := s.gath.lanes.keep fun l _ => l / 64 != n } }
  | _ => s

/-- Clusters of a die that return with it: those without a dead-wire record (R983). -/
def returning (s : State) (d : Nat) : List Nat :=
  ((List.range 64).map (64 * d + ·)).filter fun c => !(s.port c).dead

/-- A unit out of service begins to return. -/
def beginReturn (s : State) (u : Nat) : State :=
  let n := unitIndex u
  let s := (s.changeUnit u .returning byCommand).unitReset u
  match unitClass u with
  | 0x05 => s.beginTraining n (.train 0x1903)
  | 0x07 =>
    let s := (s.returning n).foldl (fun s c => (s.changeUnit (clusterUnit c) .returning byCommand).unitReset (clusterUnit c)) s
    s.setDie n { s.die n with ready := false, checked := false, released := s.now }
  | _ => s

/-- The bring-up failed: back to OUT_OF_SERVICE (R948). -/
def returnFails (s : State) (u : Nat) : State :=
  let s := if unitClass u = 0x07 then (List.range 64).foldl (fun s i =>
      let c := clusterUnit (64 * unitIndex u + i)
      if s.unitState c = .returning then s.changeUnit c .outOfService byFailure else s) s
    else s
  s.changeUnit u .outOfService byFailure

/-- A cluster's port trained at its unit reset (R743), or not. -/
def returnCluster (s : State) (c : Nat) (ok : Bool) : State :=
  if ok then (s.trainCluster c).changeUnit (clusterUnit c) .inService byCommand
  else
    let s := s.wireDead (c / 64) (clusterUnit c) 2 0 0x1FF 0
    (s.setPort c { s.port c with dead := true }).changeUnit (clusterUnit c) .outOfService byFailure

end State

def failReturn : Finish := { status := stState, detail := stateDetail 1 2 }

/-- Bring-up by class. `answers.verified` says that what must train does; `answers.figures` lists, of a die, the ports
that do not (DESIGN CHOICE, log entry 7). -/
def finishReturn (s : State) (r : Running) (a : Answers) : Option (State × Finish) :=
  let u := r.ref
  let n := unitIndex u
  match r.outcome with
  | some f => some (s, f)
  | none =>
    if s.unitState u ≠ .returning then some (s, failReturn)
    else if (homeIslands u).any s.islandStopped then some (s.returnFails u, failReturn)
    else
      match unitClass u with
      | 0x05 => none
      | 0x06 =>
        if (s.port n).dead then some (s.returnFails u, failReturn)
        else if a.verified then some (s.returnCluster n true, { status := stOk })
        else some (s.returnCluster n false, failReturn)
      | 0x07 =>
        if !(s.die n).checked then none
        else
          let cs := (s.returning n).filter fun c => s.unitState (clusterUnit c) == .returning
          let s := cs.foldl (fun s c => s.returnCluster c (!a.figures.contains (c % 64))) s
          if (List.range 64).any fun i => s.inService (clusterUnit (64 * n + i)) then
            some (s.changeUnit u .inService byCommand, { status := stOk })
          else some (s.returnFails u, failReturn)
      | _ => some (s.changeUnit u .inService byCommand, { status := stOk })

def unitReturnCmd : Cmd where
  opcode := 0x1903
  primary := .res
  lease := .excl
  accepted := true
  vf := false
  layout := [(16, 2, 0xFFFF)]
  ref _ k := k.u16 16
  bad _ k := badAnyUnit k
  check6 s k :=
    let u := k.u16 16
    (absent s u).or ((noStates u).or (match s.unitState u with
      | .outOfService | .returning => none
      | x => failState 1 (unitCode x)))
  effect s k :=
    let u := k.u16 16
    if unitClass u = 0x05 && s.cannotTrain (unitIndex u) then { state := s, outcome := some failReturn }
    else { state := s.beginReturn u }
  finish := finishReturn

/-- R267, R268, R719, R743, R948, R983. -/
def execUnitReturn (k : KCmd) (s : State) : Host.Outcome State Fault Refusal := .next (s.kymal unitReturnCmd k)

end Sys2Proof.Machine
end

