-- ==== Sys2Proof/Machine/Clock.lean ====
section
/-! DEFINITION. TBASE followers, island DPLLs and the VIN_IVR threshold (chapters 02, 05, 24). -/

namespace Sys2Proof.Machine

namespace State

def setIsland (s : State) (i : Nat) (k : IslandClock) : State := { s with clk := { s.clk with islands := s.clk.islands.set i k } }

/-- A follower slews towards the broadcast: it may trail by less than before, never by more (R47, DESIGN CHOICE, log entry 34). -/
def slew (s : State) (i : Nat) : State :=
  let k := s.island i
  if k.gatedAt.isSome || k.lag = 0 then s
  else State.tickFree (s.setIsland i { k with lag := s.freeNat % (k.lag + 1) })

/-- Unit of an EV_ISLAND_CLOCK: the lowest-numbered that lives in the island (Table 5-12). -/
def clockUnit (i : Nat) : Nat := (unitsOfIsland i).foldl min 0xFFFF

/-- EV_ISLAND_CLOCK. -/
def islandEvent (s : State) (i : Nat) (relocked singleton : Bool) (gated : Nat) : State :=
  s.raise 0x0401 (if relocked then sevCorrected else sevFailed) (clockUnit i)
    [(8, i), (1, natOf relocked), (1, natOf singleton), (6, 0), (32, min gated (2 ^ 32 - 1))]
    (if singleton then .fn 0 else .unit) i

end State

/-- R47, R49: the master's value reaches every follower. -/
def execTbaseBroadcast (s : State) : Host.Outcome State Fault Refusal :=
  .next (if s.clk.wardenLocked && !s.islandHalted islWarden then s.clk.islands.keys.foldl State.slew s else s)

/-- R36, R184: a DPLL that had locked loses its reference, and the island's clock is gated. The sealed island's clock is a glitch of Table 21-2, and GLITCH_DETECT's. -/
def execIslandDpllLockLoss (i : Nat) (s : State) : Host.Outcome State Fault Refusal :=
  .next (if i ≥ islSeal || !s.dpllLocked i || s.islandHalted i then s
    else s.setIsland i { s.island i with gatedAt := some s.now })

/-- 10 µs in nanoseconds. -/
def lockLimit : Nat := 10000

/-- Channels of a memory island. -/
def islandChannels (i : Nat) : List Nat := (List.range 140).filter fun n => chanIsland n == i

/-- What waited for an island to run again (R44): events for the warden island and its replies, what the host island sends,
writes on their way to a memory island. The transfers on its crossings follow one by one, when no command waits. -/
def State.resume (s : State) (i : Nat) : State :=
  if i = islWarden then s.collectWaiting.releaseAll
  else if i = islHost then s.releaseHost
  else if i = islXlat then s.advanceAll
  else (islandChannels i).foldl State.releaseWrites s

/-- R44, R184: relocked within 10 µs, the island resumes where it stopped, and takes what waited on its crossings. -/
def execIslandDpllRelock (i : Nat) (s : State) : Host.Outcome State Fault Refusal :=
  let k := s.island i
  .next (match k.gatedAt with
    | some t =>
      if k.stopped || decide (s.now > t + lockLimit) then s
      else
        let s' := s.setIsland i { k with gatedAt := none, lag := k.lag + (s.now - t) }
        (s'.resume i).islandEvent i true false (s.now - t)
    | none => s)

/-- Singleton islands with a lock detector (R55). -/
def isSingleton (i : Nat) : Bool := i == islXlat || i == islWarden || i == islHost || i == islPmgr

/-- R55, R56, R179, R184, R949: unlocked for more than 10 µs, the island stays stopped, and its draining units leave
service. While the warden island's clock stands TBASE cannot tell the 10 µs: the lock detector does, and the row is its word.
A singleton whose time runs out while the clock of the warden or host island stands raises no event, then or later (DESIGN
CHOICE, log entry 65). -/
def execDpllLockTimeout (i : Nat) (s : State) : Host.Outcome State Fault Refusal :=
  let k := s.island i
  .next (match k.gatedAt with
    | some t =>
      if k.stopped || (decide (s.now ≤ t + lockLimit) && !s.islandHalted islWarden) then s
      else
        let s := s.setIsland i { k with stopped := true }
        let s := if i = islWarden then { s with ev := { s.ev with waiting := [] } } else s
        let silent := isSingleton i && (s.islandHalted islWarden || s.islandHalted islHost)
        let s := if silent then s else s.islandEvent i false (isSingleton i) (s.now - t)
        ((unitsOfIsland i).filter fun u => ownStates (unitClass u) && s.unitState u == .draining).foldl State.forceOut s
    | none => s)

/-- R991: the IVR phases stop switching below 1.60 V and start again above 1.65 V. -/
def execVinIvrUndervoltage (mv : Nat) (s : State) : Host.Outcome State Fault Refusal :=
  let off := if mv < 1600 then true else if mv > 1650 then false else s.boot.ivrStopped
  .next { s with boot := { s.boot with ivrStopped := off } }

end Sys2Proof.Machine
end

