-- ==== Sys2Proof/Machine/Firmware.lean ====
section
/-! DEFINITION. Patrol and repair settings, entering service, and firmware staging and activation (chapters 04, 06, 09,
21, 22). -/

namespace Sys2Proof.Machine

/-! ### Patrol and repair records -/

/-- Reducer-style number of the channel a unit names. -/
def chanNumber (u : Nat) : Nat := if unitClass u = 0x04 then 128 + unitIndex u else unitIndex u

def patrolConfigCmd : Cmd where
  opcode := 0x1801
  primary := .res
  lease := .excl
  vf := false
  layout := [(16, 2, 0xFFFF), (18, 1, 0xFF), (24, 4, 2 ^ 32 - 1)]
  ref _ k := k.u16 16
  bad s k := badUnit (k.u16 16) 16 (fun c => c == 0x03 || c == 0x04) ++ badIf (k.u8 18 > 63 && k.u8 18 != 0xFF) 18
    ++ (match s.sluice? (k.u8 18) with
      | some q => badIf (q.tier != (if unitClass (k.u16 16) = 0x03 then 0 else 1)) 18
      | none => [])
    ++ badIf (k.u32 24 < 1 || k.u32 24 > 168) 24
  check6 s k := if k.u8 18 != 0xFF && (s.sluice? (k.u8 18)).isNone then failState 2 0 else none
  effect s k :=
    let n := chanNumber (k.u16 16)
    { state := s.setPatrol n fun p => { p with period := k.u32 24, sluice := if k.u8 18 = 0xFF then none else some (k.u8 18) } }

/-- R302, R408, R409. -/
def execPatrolConfig (k : KCmd) (s : State) : Host.Outcome State Fault Refusal := .next (s.kymal patrolConfigCmd k)

/-- Ranges of the SPI flash, base and length: firmware banks 0 and 1, the boot record's two copies, the pending row-repair
records, the identity certificate chain (R1011, Table 24-9). What lies above is reserved, and no operation writes it. -/
def flashRanges : List (Nat × Nat) :=
  [(0, 0x1000000), (0x1000000, 0x1000000), (0x2000000, 0x20000), (0x2020000, 0x20000), (0x2040000, 0x40000)]

/-- Bytes a firmware bank holds. -/
def bankBytes (b : Nat) : Nat := ((flashRanges[b]?).getD (0, 0)).2

/-- Records the flash holds for a stack. -/
def State.repairsOf (s : State) (stack : Nat) : Nat := (s.flash.repairs.filter fun r => r.channel / 16 == stack).length

def remapScheduleCmd : Cmd where
  opcode := 0x1802
  primary := .res
  lease := .excl
  accepted := true
  vf := false
  inL := true
  layout := [(16, 2, 0xFFFF), (18, 1, 0xFF), (20, 4, 2 ^ 32 - 1)]
  ref _ k := k.u16 16
  bad _ k := badUnit (k.u16 16) 16 (· == 0x03) ++ badIf (k.u8 18 > 31) 18 ++ badIf (k.u32 20 > 13839) 20
  check11 s _ := if s.flash.repairs.length ≥ 1024 then some { status := stNoResource } else none
  effect s k :=
    let n := unitIndex (k.u16 16)
    let s' : State := { s with flash := { s.flash with repairs := s.flash.repairs ++ [⟨n, k.u8 18, k.u32 20⟩] } }
    { state := s', outcome := some { status := stOk, result := toLE 2 (s'.repairsOf (n / 16)) } }

/-- R256, R1011. -/
def execRemapSchedule (k : KCmd) (s : State) : Host.Outcome State Fault Refusal := .next (s.kymal remapScheduleCmd k)

/-! ### SERVICE_ENTER -/

/-- Some target of a mandatory order lacks it (R191, R192). -/
def State.missing (s : State) (refs : List Nat) : Bool := refs.any fun r => !(s.orders.get {} (refId r)).armed

def serviceEnterCmd : Cmd where
  opcode := 0x1904
  primary := .res
  lease := .excl
  vf := false
  inS := false
  ref _ _ := wardenUnit
  check6 s _ :=
    let bits := natOf (s.missing mandatoryStack) + 2 * natOf (s.missing mandatoryDie)
    if bits = 0 then none else some { status := stState, detail := stateDetail 2 0, result := toLE 1 bits }
  effect s _ := { state := { s with boot := { s.boot with device := .service } }, result := toLE 1 0 }

/-- R175, R191, R192. -/
def execServiceEnter (k : KCmd) (s : State) : Host.Outcome State Fault Refusal := .next (s.kymal serviceEnterCmd k)

/-! ### Firmware -/

def State.setImage (s : State) (b : Nat) (i : FwImage) : State :=
  { s with flash := if b = 0 then { s.flash with bank0 := i } else { s.flash with bank1 := i } }

/-- The ASCII bytes "MOLYOWFW". -/
def imageMagic : Bytes := [0x4D, 0x4F, 0x4C, 0x59, 0x4F, 0x57, 0x46, 0x57]

/-- The image an image header describes (Table 21-6), if it follows the table and its svn is not below the fuses (R933). -/
def readImage (h : Bytes) (length fuses : Nat) : Option FwImage :=
  let zeros := fun (off n : Nat) => ((h.drop off).take n).all (· == 0)
  if h.length = 256 && h.take 8 == imageMagic && decide (byteAt h 14 < 64) && decide (byteAt h 15 < 2)
      && fieldAt h 16 8 + 256 == length && zeros 72 56 && zeros 224 32 && decide (byteAt h 14 ≥ fuses) then
    some { version := fieldAt h 8 4, kymal := fieldAt h 12 2, rollback := byteAt h 14, commitRollback := byteAt h 15 == 1
           header := h }
  else none

def fwStageCmd : Cmd where
  opcode := 0x1905
  primary := .res
  lease := .excl
  accepted := true
  vf := false
  sb := false
  inL := true
  layout := [(16, 1, 0xFF), (24, 8, 2 ^ 64 - 1), (32, 4, 2 ^ 32 - 1)]
  ref _ _ := wardenUnit
  bad _ k := badIf (k.u8 16 > 1) 16 ++ badIf (k.u8 16 ≤ 1 && k.u32 32 > bankBytes (k.u8 16)) 32
  check6 s k := if s.boot.bank = k.u8 16 then failState 2 1 else none
  effect s k := { state := s.setImage (k.u8 16) { s.image (k.u8 16) with valid := false } }
  finish s r a :=
    -- `answers.figures`: the 256 header bytes read from host memory; `answers.verified`: the digest of the body (DESIGN CHOICE, log entry 7).
    let h : Bytes := a.figures.map fun v => BitVec.ofNat 8 v
    match r.outcome, readImage h (r.cmd.u32 32) s.flash.rollbackFuses with
    | some f, _ => some (s, f)
    | none, some i =>
      if a.verified && ecdsaVerify s.flash.firmwareKey (sha384 (h.take 128)) ((h.drop 128).take 96) then some (s.setImage (r.cmd.u8 16) i, { status := stOk, result := toLE 4 i.version })
      else some (s, { status := stDenied })
    | none, none => some (s, { status := stDenied })

/-- R933, R960, R1011. -/
def execFwStage (k : KCmd) (s : State) : Host.Outcome State Fault Refusal := .next (s.kymal fwStageCmd k)

def fwActivateCmd : Cmd where
  opcode := 0x1906
  primary := .res
  lease := .excl
  accepted := true
  vf := false
  layout := [(16, 1, 0xFF)]
  ref _ _ := wardenUnit
  bad _ k := badIf (k.u8 16 > 1) 16
  check6 s k :=
    let i := s.image (k.u8 16)
    if !i.valid then failState 2 0
    else if i.kymal / 256 ≠ kymalVersion / 256 then some { status := stVersion, detail := kymalVersion }
    else none
  effect s k := { state := { s with kym := { s.kym with activating := some (k.u8 16) } } }

/-- R130, R133, R961. -/
def execFwActivate (k : KCmd) (s : State) : Host.Outcome State Fault Refusal := .next (s.kymal fwActivateCmd k)

/-- The quiet point: no other accepted command owes a final reply (R131). -/
def State.quiet (s : State) : Bool := (s.kym.running.all fun r => r.opcode == 0x1906) && s.kym.heldReplies.all fun r => r.owes.isNone

/-- The rollback counter after an activation (R934). -/
def committed (fuses : Nat) (i : FwImage) : Nat := if i.commitRollback then max fuses i.rollback else fuses

/-- R130-R132, R219, R255, R934, R961-R965, Table 22-5: `bankOk` is what verifying the bank again finds, `pause` the
intake pause in 10 µs units. -/
def execFwActivateSwap (bankOk : Bool) (pause : Nat) (s : State) : Host.Outcome State Fault Refusal :=
  .next (match s.kym.activating with
    | none => s
    | some b =>
      if !s.quiet || !s.wardenTakes then s
      else
        let i := s.image b
        let done := { s with kym := { s.kym with activating := none } }
        if !bankOk || decide (i.rollback < s.flash.rollbackFuses) then
          State.endRunning (done.setImage b { i with valid := false }) 0x1906 wardenUnit
            { status := stState, detail := stateDetail 2 0 }
        else
          let fuses := committed s.flash.rollbackFuses i
          let old := (s.image s.boot.bank).version
          let s1 : State := { done with boot := { done.boot with bank := b }
                                        flash := { done.flash with bankPtr := b, rollbackFuses := fuses
                                                                   recordWrites := done.flash.recordWrites + 1 } }
          let s2 := s1.replayHeld.raise 0x0106 sevNotice wardenUnit
            [(32, old), (32, i.version), (16, min pause 5000), (1, natOf (fuses != s.flash.rollbackFuses)), (15, 0)]
          s2.endRunning 0x1906 wardenUnit { status := stOk, result := toLE 4 i.version })

end Sys2Proof.Machine
end

