-- ==== Sys2Proof/Machine/Boot.lean ====
section
/-! DEFINITION. Power-up, the boot steps of Table 6-1, COLD_RST_N and PERST_N (chapters 06, 24). -/

namespace Sys2Proof.Machine

namespace State

/-! ### Cold reset -/

/-- Everything outside flash starts again (R236, R238, R261, R263, Table 6-6); the pins, the TAP (R1012), and what is the
model's own, stay. -/
def coldState (s : State) (device : DeviceState) : State :=
  { pending := s.pending, freeCtr := s.freeCtr, out := s.out, flash := s.flash
    host := { tapReset := s.host.tapReset, boundaryScan := s.host.boundaryScan }
    boot := { pwrOk := s.boot.pwrOk, coldRst := s.boot.coldRst, perst := s.boot.perst, device := device
              lastReset := s.boot.lastReset, spiHiZ := s.boot.coldRst } }

/-- The device is COLD, or begins a cold boot, as its pins say (R45, R238). -/
def coldPins (s : State) : State := s.coldState (if s.boot.pwrOk && !s.boot.coldRst then .booting else .cold)

/-- A reset pin held for `ns` acts: at 1 µs or longer; below 200 ns never; between, a free value says (R996). -/
def pinActs (s : State) (ns : Nat) : Bool := decide (ns ≥ 1000) || (decide (ns ≥ 200) && s.freeNat % 2 == 1)

end State

/-- R45, R234, R238, R1012. -/
def execPwrOkAssert (s : State) : Host.Outcome State Fault Refusal :=
  .next (if s.boot.pwrOk then s
    else State.coldPins { s with boot := { s.boot with pwrOk := true, lastReset := 0 }
                                 host := { s.host with tapReset := true, boundaryScan := false } })

/-- R235, R236, R260, R261, R263. -/
def execPwrOkDeassert (s : State) : Host.Outcome State Fault Refusal :=
  .next (State.coldPins { s with boot := { s.boot with pwrOk := false, lastReset := 0 } })

/-- R232, R260, R261, R265, R996. -/
def execColdRstNAssert (ns : Nat) (s : State) : Host.Outcome State Fault Refusal :=
  .next (if s.boot.coldRst then s
    else if s.pinActs ns then
      State.coldPins { s with boot := { s.boot with coldRst := true, lastReset := if s.boot.pwrOk then 1 else 0 } }
    else s.tickFree)

/-- R45, R238. -/
def execColdRstNRelease (s : State) : Host.Outcome State Fault Refusal :=
  .next (if s.boot.coldRst then State.coldPins { s with boot := { s.boot with coldRst := false } } else s)

/-! ### PERST_N -/

namespace State

/-- What PERST_N keeps, and boot back at step 2 (R241, R260-R266, Table 6-6): TBASE, the event sequence and the events
held, the log, the generation counters, the reserved seed, the counts since cold reset, the SMBus endpoint, flash. -/
def perstReset (s : State) : State :=
  let x := s.sealed
  { pending := s.pending, freeCtr := s.freeCtr, out := s.out, flash := s.flash
    boot := { pwrOk := s.boot.pwrOk, coldRst := s.boot.coldRst, perst := true, step := min s.boot.step 1, lastReset := 2
              coldDone := s.boot.coldDone, smbusUp := s.boot.smbusUp, selfRefresh := true, ivrStopped := s.boot.ivrStopped }
    clk := { tbase := s.clk.tbase, wardenLocked := s.clk.wardenLocked }
    kym := { genCount := s.kym.genCount, genEpoch := s.kym.genEpoch, mismatches := s.kym.mismatches, mismatchAt := s.kym.mismatchAt }
    ev := { nextSeq := s.ev.nextSeq, held := s.ev.held, log := s.ev.log, logAt := s.ev.logAt, faultUntil := s.ev.faultUntil
            smbusSlot := s.ev.smbusSlot, jtagSlot := s.ev.jtagSlot, sbrTorn := s.ev.sbrTorn
            jtagTorn := s.ev.jtagTorn }
    host := { smbusAddr := s.host.smbusAddr, sbrOffset := s.host.sbrOffset, tapReset := s.host.tapReset
              boundaryScan := s.host.boundaryScan }
    mem := { reserved := s.mem.reserved, area := s.mem.area }
    sealed := { seed := x.seed, attempts := x.attempts, resets := x.resets, detectors := x.detectors
                loadedAtFirst := x.loadedAtFirst, firstAt := x.firstAt }
    prog := { tokenWaits := s.prog.tokenWaits }
    link := { noRef := s.link.noRef }
    power := { trip := s.power.trip } }

end State

/-- R241, R260-R266, R996; a cold reset in force prevails. -/
def execPerstNAssert (ns : Nat) (s : State) : Host.Outcome State Fault Refusal :=
  .next (if s.boot.perst then s
    else if s.pinActs ns then
      if s.boot.device = .cold then { s with boot := { s.boot with perst := true } } else s.perstReset
    else s.tickFree)

/-- R241, R917: boot may go on past step 5. -/
def execPerstNRelease (s : State) : Host.Outcome State Fault Refusal :=
  .next { s with boot := { s.boot with perst := false } }

/-- R36, R242: the warden ROM and TBASE start. -/
def execWardenDpllLock (s : State) : Host.Outcome State Fault Refusal :=
  .next (if s.boot.device = .cold then s else { s with clk := { s.clk with wardenLocked := true } })

/-! ### The boot steps (Table 6-1) -/

namespace State

/-- Boot stops: FAULT_N and a configuration space that holds only the PF (R253, R254). -/
def bootFails (s : State) (step : Nat) : State := { s with boot := { s.boot with failStep := step, config := .pfOnly } }

/-- A test result of the boot itself, tests 3 and 4 (R978, Table 23-3). -/
def bootResult (s : State) (u test fails signature : Nat) : State :=
  let r : TestResult := { verdict := if fails = 0 then 0 else 1, test := test, failCount := fails, signature := signature
                          expected := 0, stamp := s.now }
  { s with svc := { s.svc with results := s.svc.results.set u r } }

/-- Step 7 (R254, R916, R917, R926, R978). -/
def bootSeal (s : State) (r : BootReport) (cold : Bool) : State :=
  if !r.entropyOk then s.bootFails 7
  else
    let s := if cold then s.bootResult sealedUnit 4 r.selfTestFails 0 else s
    let seed := if cold then some (s.freeNat % 2 ^ 384) else s.sealed.seed
    let s := if cold then s.tickFree else s
    { s with sealed := { s.sealed with seed := seed, reservedKey := seed.map deriveReserved } }

/-- A bank holds an image that verifies and is not below the rollback counter (R933). -/
def bankPasses (s : State) (b : Nat) : Bool := (s.image b).valid && decide ((s.image b).rollback ≥ s.flash.rollbackFuses)

/-- Step 8 (R252, R253). -/
def bootBank (s : State) : State :=
  let b := s.flash.bankPtr
  if s.bankPasses b then { s with boot := { s.boot with bank := b, fallback := false } }
  else if s.bankPasses (1 - b) then { s with boot := { s.boot with bank := 1 - b, fallback := true } }
  else s.bootFails 8

/-- Step 9 of a cold boot: the epoch advances and every generation counter is set (R103). -/
def bootEpoch (s : State) : State :=
  let e := s.flash.epoch + 1
  { s with flash := { s.flash with epoch := e, recordWrites := s.flash.recordWrites + 1 }, kym := { s.kym with genEpoch := e, genCount := {} } }

/-- Applies the pending row repairs and deletes them; a stack with one that finds no spare row is reported once (R256, R257). -/
def bootRepairs (s : State) (unrepairable : List Nat) : State :=
  let bad := s.flash.repairs.zipIdx.filter fun r => unrepairable.contains r.2
  let s := { s with flash := { s.flash with repairs := [] } }
  (List.range 8).foldl (fun s st =>
    match bad.find? fun r => r.1.channel / 16 == st with
    | some r => s.raise 0x0505 sevDegraded (nearUnit r.1.channel) [(5, r.1.bank), (2, 2)]
    | none => s) s

/-- Pages of a tier hold the uncorrectable pattern (R243): nothing is written there. -/
def unwrite (s : State) (gone : Nat → Bool) : State :=
  let m := s.mem
  { s with mem := { m with cells := m.cells.filter (fun c => !gone c.1), pages := m.pages.keep fun k _ => !gone (4096 * k)
                           valid := m.valid.keep fun k _ => !gone (4096 * k) } }

/-- The result of the bond-wire test of one stack: failing wires, and the map of the channels they belong to (R978). -/
def bondResult (s : State) (r : BootReport) (st : Nat) : State :=
  let wires := r.bondWires.filter fun x => x.1 / 16 == st
  s.bootResult (stackUnit st) 3 wires.length
    ((List.range 16).foldl (fun m k => m + natOf (wires.any fun x => x.1 % 16 == k) * 2 ^ k) 0)

/-- The stack is declared failed at step 12 (Table 7-5): a wire fails the bond test, which only a cold boot runs (R240), or
a channel fails calibration. -/
def bootStack (s : State) (r : BootReport) (cold : Bool) (st : Nat) : State :=
  match (if cold then r.bondWires.find? fun x => x.1 / 16 == st else none), r.uncalibrated.find? fun n => n / 16 == st with
  | some x, _ => s.failStack st 1 (nearUnit x.1) x.2.1 x.2.2
  | none, some n => s.failStack st 2 (nearUnit n) 0xFF 0
  | none, none => s

/-- Step 12 (R240, R243, R256, R257, R272, R319, R323, R978). -/
def bootNear (s : State) (r : BootReport) (cold : Bool) : State :=
  let s := s.unwrite fun a => decide (a < boardBase)
  let s := s.bootRepairs r.unrepairable
  let s := if cold then (List.range 8).foldl (fun s st => s.bondResult r st) s else s
  let s := (List.range 8).foldl (fun s st =>
    { s with mem := { s.mem with nearStacks := s.mem.nearStacks.upd {} st fun k => { k with lastReadout := s.now } } }) s
  (List.range 8).foldl (fun s st => s.bootStack r cold st) s

/-- The 24 reserved slabs over the channels that trained, lowest first (R316). -/
def layReserved (trained : List Nat) : Bank Nat :=
  let w := trained.length
  ⟨trained.zipIdx.map fun x => (x.1, 24 / w + natOf (decide (x.2 < 24 % w)))⟩

/-- The data rates a board channel tries in turn, Gb/s per pin (R286, Table 7-2). -/
def boardRates : List Nat := [32, 28, 24, 20]

/-- How training at one rate fails: stage and device of Table 5-12. A pair that is not as Table 7-2 has it fails at every
rate (R285). -/
def trainFailure (r : BootReport) (b rate : Nat) : Option (Nat × Nat) :=
  let pair := ((r.boardPairs.find? fun x => x.1 == b).map (·.2)).getD {}
  if pair.density ≠ 32 ∨ pair.clamshell = false ∨ pair.width ≠ 16 then some (1, pair.device)
  else (r.boardFails.find? fun x => x.1 == b && x.2.1 == rate).map fun x => x.2.2

/-- The rate a board channel trains at: the first that passes; none where none does (R286). -/
def trainedRate (r : BootReport) (b : Nat) : Option Nat := boardRates.find? fun x => (trainFailure r b x).isNone

/-- One board channel at step 13: it runs at the rate it trained at, or is out of service (R248, R286, R287). -/
def bootChannel (s : State) (r : BootReport) (b : Nat) : State :=
  match trainedRate r b with
  | some rate => s.setChan (128 + b) { s.chan (128 + b) with rate := rate }
  | none =>
    let f := (trainFailure r b 20).getD (0, 3)
    (s.raise 0x0508 sevDegraded (boardUnit b) [(8, 20), (4, f.1), (4, 0), (2, f.2)]).changeUnit (boardUnit b) .outOfService byBoot

/-- Step 13 (R217, R243, R247, R248, R262, R285, R286, R316, R318). -/
def bootBoard (s : State) (r : BootReport) (cold : Bool) : State :=
  let s := s.unwrite fun a => decide (boardBase ≤ a)
  let trained := (List.range 12).filter fun b => (trainedRate r b).isSome
  let s := (List.range 12).foldl (fun s b => s.bootChannel r b) s
  let layout := if cold || decide (trained.length < 12) then layReserved trained else s.mem.reserved
  let s : State := { s with mem := { s.mem with trained := trained, reserved := layout }
                            boot := { s.boot with selfRefresh := false } }
  let log := if cold then [] else s.ev.log
  let at_ := if cold then 0 else s.ev.logAt
  let s : State := { s with ev := { s.ev with log := log, logAt := at_, logOpen := true, noLog := trained.isEmpty } }
  let s := (List.range 4).foldl (fun s d => s.setDie d { s.die d with released := s.now }) s
  s.replayHeld

/-- Every compute die has answered its handshake, or has failed it (R250, R742). -/
def diesAnswered (s : State) : Bool :=
  (List.range 4).all fun d => (s.die d).checked || s.unitState (dieUnit d) == .outOfService

/-- One cluster port at step 14: lost to the bond test, which only a cold boot runs (R240), or to training, or trained
(R249, R743). -/
def bootPort (s : State) (r : BootReport) (cold : Bool) (c : Nat) : State :=
  match (if cold then r.dieWires.find? fun x => x.1 == c else none), r.untrainedPorts.find? fun x => x.1 == c with
  | some x, _ => s.losePort c 1 x.2.1 x.2.2 0
  | none, some x => s.losePort c 2 x.2.1 x.2.2 0
  | none, none => s.trainCluster c

/-- Step 14 (R240, R249, R743, R978). -/
def bootDies (s : State) (r : BootReport) (cold : Bool) : State :=
  (List.range 4).foldl (fun s d =>
    let wires := r.dieWires.filter fun x => x.1 / 64 == d
    let bonded := (wires.map fun x => x.1 % 64).eraseDups
    let s := if cold then s.bootResult (dieUnit d) 3 wires.length (bonded.foldl (fun m j => m + 2 ^ j) 0) else s
    if s.unitState (dieUnit d) = .outOfService then s
    else (List.range 64).foldl (fun s i => s.bootPort r cold (64 * d + i)) s) s

/-- The link islands of quadrants without a reference: their DPLLs have nothing to lock to (R36). -/
def unlockQuadrants (s : State) (qs : List Nat) : State :=
  { s with clk := { s.clk with locked := s.clk.locked.keep fun i _ => !(qs.any fun q => islandReference i == .link q) } }

/-- Step 15 (R32, R36, R251, R1001): an absent reference, or one out of tolerance. -/
def bootLinks (s : State) (r : BootReport) (cold : Bool) : State :=
  let bad := r.badRefclk.filter fun x => decide (x.1 < 4)
  let absent := ((if cold then [] else s.link.noRef) ++ bad.map (·.1)).eraseDups
  let s := State.unlockQuadrants { s with link := { s.link with noRef := absent } } absent
  bad.foldl (fun s x => (List.range 12).foldl (fun s i =>
    s.raise 0x0D04 sevDegraded (portUnit (12 * x.1 + i)) [(2, x.1), (1, natOf (x.2 != 0)), (5, 0), (24, x.2)]) s) s

/-- Step 16 (R246, R272): with a stack lost the device enters LOST, and BOOT.PROGRESS says so (Table 6-7). -/
def bootReady (s : State) : State :=
  let lost := (List.range 8).any fun st => s.stackFailed st
  { s with boot := { s.boot with device := if lost then .lost else .unconfigured, lostAtBoot := lost } }

/-- What ends with step `n` of Table 6-1; `cold`: its cold parts run (R240, R266). The DPLLs of the host island and the
power manager lock at step 3, all others at step 11 (R36). -/
def bootStep (s : State) (n : Nat) (r : BootReport) (cold : Bool) : State :=
  match n with
  | 3 => s.lockDplls [islHost, islPmgr]
  | 4 => { s with boot := { s.boot with smbusUp := true } }
  | 6 => { s with boot := { s.boot with config := .rrs } }
  | 7 => s.bootSeal r cold
  | 8 => s.bootBank
  | 9 => if cold then s.bootEpoch else s
  | 10 => { s with boot := { s.boot with config := .full } }
  | 11 => s.lockDplls (List.range 185)
  | 12 => s.bootNear r cold
  | 13 => s.bootBoard r cold
  | 14 => s.bootDies r cold
  | 15 => s.bootLinks r cold
  | 16 => s.bootReady
  | _ => s

/-- The next step may end now: its clock runs, PERST_N holds boot at step 5 (R241, R242), step 14 waits for the dies. -/
def stepMayEnd (s : State) (n : Nat) : Bool :=
  s.boot.device == .booting && s.clk.wardenLocked && s.kym.warden == .running && s.boot.failStep == 0 && decide (n ≤ 16) && !(n == 5 && s.boot.perst)
    && (n != 14 || s.diesAnswered)

end State

/-- R238-R257, R272, R279: the step in progress ends, and the next begins. -/
def execBootStepEnd (r : BootReport) (s : State) : Host.Outcome State Fault Refusal :=
  let n := s.boot.step + 1
  .next (if !s.stepMayEnd n then s
    else
      let s := s.bootStep n r (decide (s.boot.coldDone < n))
      if s.boot.failStep != 0 then s
      else State.reportSeal { s with boot := { s.boot with step := n, coldDone := max s.boot.coldDone n } })

end Sys2Proof.Machine
end

