-- ==== Sys2Proof/Machine/Programs.lean ====
section
/-! DEFINITION. Programs: start, stop, slots, and what returns to a sequencer (chapters 04, 14, 15). -/

namespace Sys2Proof.Machine

/-! ### PROGRAM_START (R170, R632-R634) -/

/-- Tokens of the current pool that no admitted envelope reserves. -/
def State.unreserved (s : State) : Nat := s.pool - s.reservedTokens

/-- The caddy a program command names, where it is bound. -/
def boundCaddy (s : State) (k : KCmd) : Option Caddy := (s.inf.caddies.get? (caddyOf k)).filter fun c => c.bound.isSome

/-- The caddy's declaration uses an argument polder: bytes 20-31 then name it, whatever the caddy's state (R21, R1030). -/
def usesArgument (s : State) (k : KCmd) : Bool :=
  match s.inf.caddies.get? (caddyOf k) with
  | some c => c.decl.argument
  | none => false

/-- 20 µs (R632). -/
def startDelay : Nat := 20000

def programStartCmd : Cmd where
  opcode := 0x1406
  primary := .res
  lease := .excl
  sb := false
  inU := false
  layout := [(16, 4, 2 ^ 32 - 1), (20, 2, 0xFFFF), (22, 2, 0xFFFF), (24, 8, all8)]
  ref _ k := k.u32 16
  bad s k := badCaddyRef k
    ++ (match boundCaddy s k with
      | none => []
      | some c =>
        let entries := match s.codeHeader c with
          | some h => entryCount h
          | none => if (c.firstSection 1).isSome then 65536 else 0
        badIf (k.u16 22 ≥ entries) 22)
    ++ (if usesArgument s k then badUnit (k.u16 20) 20 (· == 0x0D) ++ badIf (k.u64 24 ≥ 2 ^ 48) 24 else [])
  names s k := if usesArgument s k then [k.u16 20] else []
  check6 s k := (caddyIn s k [3]).or
    ((if usesArgument s k then absent s (k.u16 20) else none).or
      (match boundCaddy s k with
       | some c => if (s.codeHeader c).isNone then failState 2 0 else none
       | none => none))
  check11 s k :=
    match boundCaddy s k with
    | some c => if c.decl.envelope > s.unreserved then some { status := stNoResource } else none
    | none => none
  effect s k :=
    let slot := caddyOf k
    match boundCaddy s k with
    | none => { state := s }
    | some c =>
      match s.codeHeader c, c.bound with
      | some h, some b =>
        let id := s.prog.nextProgram
        let env := c.decl.envelope
        let arg := if c.decl.argument then polderAddr (unitIndex (k.u16 20)) (k.u64 24) else 0
        let (pc, debug, len) := entryAt h (k.u16 22)
        let r : StartRec := ⟨arg, b.seqs.length, k.u16 22, pc, debug, len⟩
        let s := { s with prog := { s.prog with nextProgram := (id + 1) % 2 ^ 32,
                                                posts := s.prog.posts.filter fun p => !b.seqs.contains p.dst } }
        let s := b.seqs.foldl (fun s q => s.modSq q fun x =>
          { x with state := .armed, program := id, startAt := s.now + startDelay, start := some r, wait := none, ended := false,
                   stopping := false, held := 0, inUse := 0, ops := [] }) s
        let s := s.modCaddy slot fun c =>
          { c with program := id, envelope := env, argument := if c.decl.argument then some (unitIndex (k.u16 20)) else none }
        let s := s.caddyTo slot 4
        { state := s, result := toLE 4 id ++ toLE 2 env ++ toLE 2 s.unreserved }
      | _, _ => { state := s }

/-- R170, R632-R634, R661. -/
def execProgramStart (k : KCmd) (s : State) : Host.Outcome State Fault Refusal := .next (s.kymal programStartCmd k)

/-! ### The start time (R632, R634, Table 14-1) -/

/-- Registers at the start of a program. -/
def startRegs (x : Sequencer) (r : StartRec) : Bank (BitVec 64) :=
  let v := [r.argument, x.rank, r.count, x.program, r.entry, x.startAt]
  ⟨((List.range 6).map fun i => (i + 1, BitVec.ofNat 64 ((v[i]?).getD 0))).filter fun c => c.2 != 0⟩

/-- R632, R634: slot 0 begins once the slice's follower reaches the start time. In LOST the sequencer stops at that boundary
(R273, R635). -/
def execProgramStartTime (q : Nat) (s : State) : Host.Outcome State Fault Refusal :=
  let x := s.sq q
  .next (match x.start with
    | some r =>
      if x.state = .armed && decide (q < 64) && !s.islandHalted q && decide (s.follower q ≥ x.startAt) then
        let begun : Sequencer :=
          { store := x.store, caddy := x.caddy, rank := x.rank, program := x.program, startAt := x.startAt,
            nextOp := x.nextOp, regs := startRegs x r, pc := r.pc, debug := r.debug, slotLen := r.slotLen,
            nextLen := r.slotLen, state := .running }
        s.setSq q (if s.boot.device = .lost then { x with state := .stopped } else begun)
      else s
    | none => s)

/-! ### PROGRAM_STOP (R171, R648, R704, R705) -/

namespace State

/-- Operations that a stop discards: they report to nobody, their tokens return (R705). -/
def forgetOps (s : State) (tags : List SeqTag) : State :=
  tags.foldl (fun s t =>
    match (s.sq t.seq).ops.find? fun o => o.id == t.op with
    | some o => (s.modSq t.seq fun x => { x with ops := x.ops.filter fun p => p.id != t.op }).returnTokens t.seq o.tokens
    | none => s) s

/-- A program channel drops the descriptors it has not dispatched, but for one that halted it. -/
def dropQueued (s : State) (k : Nat) : State :=
  let x := s.pchan k
  let gone := fun (d : PDesc) => !d.dispatched && !d.completed && !(x.halt.any fun h => h.index == d.index)
  let tags := (x.descs.filter gone).filterMap (·.tag)
  let s := s.dropJobs ((x.descs.filter gone).map (·.job))
  (s.setPchan k { x with descs := x.descs.filter fun d => !gone d }).forgetOps tags

/-- Issued work of a program that has not started: undispatched descriptors, queued gather jobs, Infuser jobs not
running (R648). -/
def dropUnstarted (s : State) (b : Binding) : State :=
  let mine := fun (t : SeqTag) => b.seqs.contains t.seq
  let s := b.chans.foldl dropQueued s
  let s := s.gath.lanes.cells.foldl (fun s c =>
    let gone := fun (j : GatherJob) => mine j.tag && j.accepted.isNone
    let tags := (c.2.jobs.filter gone).map (·.tag)
    if tags.isEmpty then s else (s.setLane c.1 { c.2 with jobs := c.2.jobs.filter fun j => !gone j }).forgetOps tags) s
  let held := fun (j : InfJob) => !j.started && match j.owner with
    | .seq t => mine t
    | _ => false
  let tagOf := fun (j : InfJob) => match j.owner with
    | .seq t => some t
    | _ => none
  let s := s.inf.units.cells.foldl (fun s c =>
    let gone := c.2.jobs.filter held
    if gone.isEmpty then s
    else ((s.dropJobs (gone.map (·.job))).setInfUnit c.1 { c.2 with jobs := c.2.jobs.filter fun j => !held j }).forgetOps
      (gone.filterMap tagOf)) s
  let gone := s.inf.queue.filter held
  State.forgetOps { s with inf := { s.inf with queue := s.inf.queue.filter fun j => !held j } } (gone.filterMap tagOf)

/-- A sequencer stops at its slot boundary: a blocking instruction ends uncompleted, a load already sent still writes its
register (R171, R704, R273). -/
def stopSeq (s : State) (q : Nat) : State :=
  let x := s.sq q
  let load := match x.wait with
    | some (.load a b c d e f) => some (SeqWait.load a b c d e f)
    | _ => none
  let s := s.dropJobs [x.redJob]
  let s := { s with prog := { s.prog with queue := s.prog.queue.filter fun r => r.seq != q } }
  s.setSq q { x with state := .stopped, wait := load, held := x.inUse, stopping := false, redJob := none }

/-- Nothing of a sequencer runs or is outstanding. -/
def seqAtRest (s : State) (q : Nat) : Bool :=
  let x := s.sq q
  x.ops.isEmpty && match x.state with
    | .running | .armed => false
    | _ => true

end State

def programStopCmd : Cmd where
  opcode := 0x1407
  primary := .res
  lease := .excl
  accepted := true
  sb := false
  layout := [(16, 4, 2 ^ 32 - 1)]
  ref _ k := k.u32 16
  bad _ k := badCaddyRef k
  check6 s k := caddyIn s k [4]
  effect s k :=
    match (s.inf.caddies.get? (caddyOf k)).bind (·.bound) with
    | none => { state := s }
    | some b =>
      let s := s.dropUnstarted b
      let stop := fun (x : Sequencer) => match x.state with
        | .running => { x with stopping := true }
        | .armed => { x with state := .stopped }
        | _ => x
      { state := b.seqs.foldl (fun s q => s.modSq q stop) s }
  finish s r _ :=
    match (s.inf.caddies.get? (refId r.ref)).bind (·.bound) with
    | none => some (s, { status := stOk, result := toLE 4 0 })
    | some b =>
      if b.seqs.all s.seqAtRest then
        let slots := (b.seqs.map fun q => (s.sq q).slots).foldl max 0
        some (s.endProgram (refId r.ref), { status := stOk, result := toLE 4 slots })
      else none

/-- R171, R648, R704, R705. -/
def execProgramStop (k : KCmd) (s : State) : Host.Outcome State Fault Refusal := .next (s.kymal programStopCmd k)

/-! ### Slots (R635-R637, R692, R698) -/

namespace State

/-- The paced sends of a sequencer place their next blocks. -/
def paceAll (s : State) (q : Nat) : State := (s.sq q).ops.foldl (fun s o => s.paceOne q o) s

def slotBoundary (s : State) (q : Nat) : State :=
  let x := s.sq q
  let s := (s.setSq q { x with slots := x.slots + 1, slotLen := x.nextLen }).paceAll q
  let x := s.sq q
  if x.stopping then
    let s := s.stopSeq q
    s.dropUnstarted (s.bindingOf q)
  else if s.boot.device = .lost then s.stopSeq q
  else match x.wait with
    | some (.slot k) => if k ≤ x.slots then s.setSq q { x.next with wait := none } else s
    | _ => s

end State

/-- R635-R637, R171, R273, R692, R704. A sequencer that runs no more keeps its grid for the paced sends it left. -/
def execSlotBoundary (q : Nat) (s : State) : Host.Outcome State Fault Refusal :=
  .next (if q ≥ 64 || s.islandHalted q then s
    else match (s.sq q).state with
      | .running => s.slotBoundary q
      | .trapped | .stopped => s.paceAll q
      | _ => s)

/-! ### What returns -/

/-- R642, R643. -/
def execTokenGrant (s : State) : Host.Outcome State Fault Refusal :=
  .next (if s.islandHalted islPmgr then s else State.grantTokens s.prog.queue.length s)

namespace State

/-- SECDED errors found where an access goes. -/
def placeFaults (s : State) (p : Place) (faults : List WordFault) : State :=
  match p with
  | .polder i o =>
    match (s.polder? i).bind fun q => q.dpa o with
    | some a => s.lineFaults (homeSlice a) (a / 128) faults
    | none => s
  | .scratch a => s.windowFaults a faults
  | _ => s

end State

/-- R678, R704: a load returns once every earlier store and reducer operation to its line has been applied (R677). -/
def execSeqLoadReturn (q : Nat) (faults : List WordFault) (s : State) : Host.Outcome State Fault Refusal :=
  let x := s.sq q
  .next (match x.wait with
    | some (.load kind addr size signed pair reg) =>
      let p := s.seqPlace q none kind addr
      if s.islandHalted q || s.placeWaits p (2 ^ size) || s.lineBusy q x.nextOp p then s
      else
        let (s, r) := (s.placeFaults p faults).readPlace p (2 ^ size) true
        if r.bad.isSome then
          match x.state with
          | .running => s.seqTrap q 4 addr 0
          | _ => s.setSq q { s.sq q with wait := none }
        else
          let y := s.sq q
          let y := if pair then (y.setReg reg (BitVec.ofNat 64 (fieldAt r.bytes 0 8))).setReg (reg + 1) (BitVec.ofNat 64 (fieldAt r.bytes 8 8))
            else y.setReg reg (if signed then sext (8 * 2 ^ size) (leNat r.bytes) else zext (8 * 2 ^ size) (leNat r.bytes))
          s.setSq q (match y.state with
            | .running => { y.next with wait := none }
            | _ => { y with wait := none })
    | _ => s)

namespace State

/-- An operation leaves the list of outstanding ones; a FENCE or END that waited for it may complete. -/
def dropOp (s : State) (q id : Nat) : State := s.modSq q fun x => { x with ops := x.ops.filter fun o => o.id != id }

/-- A trap that arrives with a completion, where its sequencer still runs (R649, R702, R703). -/
def lateTrap (s : State) (q : Nat) (o : SeqOp) (t : Option Trap) : State :=
  match t, (s.sq q).state with
  | some t, .running => s.trapSeq q o.index t
  | _, _ => s

/-- An operation completes: its record is written, its tokens return, then its counter rises (R681). -/
def completeOp (s : State) (q : Nat) (o : SeqOp) (d : OpDone) : State :=
  let s := if d.record.isEmpty then s else s.modSq q fun x => x.write o.scratch d.record
  let s := (s.dropOp q o.id).returnTokens q o.tokens
  let s := match o.counter with
    | some j => s.postCounter q j 1
    | none => s
  s.lateTrap q o d.trap

end State

/-- R681, R683, R702, R705: the word or record of a unit's work, a posted store made visible, a stream operation's end. -/
def execOperationCompletion (q op : Nat) (s : State) : Host.Outcome State Fault Refusal :=
  .next (if s.islandHalted q then s
    else match (s.sq q).ops.find? fun o => o.id == op with
    | none => s
    | some o =>
      match o.work, o.done with
      | .store kind addr data, _ =>
        let p := s.seqPlace q none kind addr
        if s.lineBusy q o.id p || s.placeWaits p data.length then s
        else State.dropOp (s.writePlace p data) q op
      | .red _ _ _ _ _ _ _ _ _, _ => s
      | .send c unit _ [] _, none => if s.unsent c unit then s else s.completeOp q o {}
      | _, some d => s.completeOp q o d
      | _, none => s)

/-- R587, R687, R702: the 4 tokens return with the last acknowledgement. -/
def execRedAckReceived (q op : Nat) (s : State) : Host.Outcome State Fault Refusal :=
  .next (if s.islandHalted q then s
    else match (s.sq q).ops.find? fun o => o.id == op with
    | none => s
    | some o =>
      match o.work with
      | .red _ addr _ _ _ _ _ job (some ok) =>
        let s := (s.dropJobs [job]).dropOp q op
        let s := if (s.sq q).ops.any fun p => p.cls == 3 then s else s.returnTokens q 4
        s.lateTrap q o (if ok then none else some { cause := 9, addr := addr % 2 ^ 48 })
      | _ => s)

/-- R638, R640: posts of one source to one counter arrive in the order of issue. -/
def execSignalArrival (src dst : Nat) (s : State) : Host.Outcome State Fault Refusal :=
  .next (if s.islandHalted dst then s
    else match s.prog.posts.find? fun p => p.src == src && p.dst == dst with
    | none => s
    | some p =>
      let s := { s with prog := { s.prog with posts := dropFirst p s.prog.posts } }
      s.postCounter dst p.counter p.value)

/-- R693. -/
def execFenceComplete (q : Nat) (s : State) : Host.Outcome State Fault Refusal :=
  .next (if s.islandHalted q then s else s.wakeFence q)

/-- R646, R647. -/
def execEndComplete (q : Nat) (s : State) : Host.Outcome State Fault Refusal :=
  .next (if s.islandHalted q then s else s.finishEnd q)

end Sys2Proof.Machine
end

