-- ==== Sys2Proof/Machine/D2dRows.lean ====
section
/-! DEFINITION. What a cluster port receives: groups, aperture requests, CTRL messages, fetches (chapter 16). -/

namespace Sys2Proof.Machine

/-- What is left unacknowledged after an acknowledgement of `ack`; one that names no such group changes nothing. -/
def afterAck (ack : Nat) (l : List Group) : List Group :=
  match l.findIdx? fun g => g.seq == ack with
  | some i => l.drop (i + 1)
  | none => l

namespace State

/-- A cluster port carries traffic: not lost, its island's clock on, its cluster in service or draining. -/
def d2dRuns (s : State) (c : Nat) : Bool :=
  decide (c < 256) && !(s.port c).dead && !s.islandHalted (140 + c / 16)
    && match s.unitState (clusterUnit c) with
      | .inService | .draining => true
      | _ => false

/-! ### Acknowledgement and replay (R712-R718) -/

/-- Resends every unacknowledged group, in order (R715). -/
def resend (s : State) (c : Nat) : State := (s.port c).stream.unacked.foldl (fun s g => s.putGroup c g false) s

/-- Acts on the acknowledgement and credit total of a correct group (R714, R715, R722). -/
def takeSide (s : State) (c side : Nat) : State :=
  let p := s.port c
  let un := if bitOf side 18 then afterAck (bitsOf side 19 7) p.stream.unacked else p.stream.unacked
  let cu := bitsOf side 27 4
  let credit := if cu ≤ 8 then p.credit.set cu (bitsOf side 31 8) else p.credit
  let s := s.setPort c { p with stream := { p.stream with unacked := un }, credit := credit }
  let s := if bitOf side 26 then s.resend c else s
  drain (s.port c).txq.length c s

/-- A discarded sequenced group: nak once until the expected one is accepted (R713). -/
def nakGroup (s : State) (c : Nat) : State :=
  let p := s.port c
  if p.stream.nakSent then s
  else (s.setPort c { p with stream := { p.stream with nakSent := true } }).sendIdle c true

/-- The endpoint of a direction-1 stream unit takes what it can. -/
def feedEndpoint (s : State) (c unit : Nat) : State :=
  match s.endpointOf c unit 1 with
  | some (.pump k) => s.serveEngine (k / 16)
  | some (.seq q) => feedRecvs (s.sq q).ops.length q c unit s
  | _ => s

/-- A STREAM group from a cluster: its data halves go to the endpoint; an unbound unit's are discarded, credited back and
counted (R721). -/
def takeStream (s : State) (c unit : Nat) (halves : List (Nat × Bytes)) : State :=
  let p := s.port c
  match s.endpointOf c unit 1 with
  | none => (s.setPort c { p with discarded := p.discarded + 1 }).freeGroups c unit 1
  | some _ =>
    let data := (halves.filter fun h => h.1 == markData).flatMap (·.2)
    if data.isEmpty then s.freeGroups c unit 1
    else (s.setPort c { p with inbox := p.inbox.set unit (p.inbox.get [] unit ++ [data]) }).feedEndpoint c unit

/-- An APERTURE group from a cluster: a header, or the data of a 128-byte write (R725, Table 16-4). -/
def takeAperture (s : State) (c : Nat) (data : Bytes) : State :=
  let p := s.port c
  let op := byteAt data 0
  let size := bitsOf (byteAt data 1) 4 3
  let tag := byteAt data 2
  let n : ApReq :=
    { tag := tag, op := op, slot := byteAt data 1 % 16, size := size, type := byteAt data 3, offset := fieldAt data 8 6
      data := (data.drop 64).take (2 ^ size), reused := p.requests.any fun r => r.tag == tag, more := op == 1 && size == 7 }
  let requests := match p.requests.getLast? with
    | some r => if r.more then p.requests.dropLast ++ [{ r with data := data, more := false }] else p.requests ++ [n]
    | none => [n]
  (s.setPort c { p with requests := requests }).freeGroups c 8 1

/-- The eight messages of a CTRL group, empty ones apart (Table 16-5). -/
def takeCtrl (s : State) (c : Nat) (data : Bytes) : State :=
  let p := s.port c
  let ms := ((List.range 8).map fun i => (data.drop (16 * i)).take 16).filter fun m => byteAt m 0 != 0
  s.setPort c { p with ctrl := p.ctrl ++ ms }

/-- The next sequenced group, accepted. -/
def acceptGroup (s : State) (c side : Nat) (data : Bytes) : State :=
  let p := s.port c
  let link := { p.stream with rxSeq := (p.stream.rxSeq + 1) % 128, nakSent := false, fails := 0 }
  let s := (s.setPort c { p with stream := link }).sendIdle c false
  match bitsOf side 7 3 with
  | 1 => s.takeStream c (bitsOf side 10 3) [(bitsOf side 13 2, data.take 64), (bitsOf side 15 2, data.drop 64)]
  | 2 => s.takeAperture c data
  | 3 => s.takeCtrl c data
  | _ => s

/-- A group received on the stream path (R710-R716). -/
def receiveGroup (s : State) (c : Nat) (data side : Bytes) (crc wire : Nat) : State :=
  let v := fieldAt side 0 6
  let seq := v % 128
  let idle := bitsOf v 7 3 == grpIdle
  let p := s.port c
  if crc16 (data ++ side) ≠ crc then
    if idle then s
    else
      let fails := if seq = p.stream.rxSeq then p.stream.fails + 1 else p.stream.fails
      let s := s.setPort c { p with retries := p.retries + 1, stream := { p.stream with fails := fails } }
      if fails ≥ 8 then s.losePort c 0 1 wire seq else s.nakGroup c
  else
    let s := s.takeSide c v
    if idle then s
    else if seq = (s.port c).stream.rxSeq then s.acceptGroup c v data
    else s.nakGroup c

end State

/-- R709-R719, R721, R722. -/
def execD2dGroupReceived (c : Nat) (a : D2dArrival) (s : State) : Host.Outcome State Fault Refusal :=
  .next (if !s.d2dRuns c then s
    else match a with
      | .group data side crc wire =>
        if data.length = 128 && side.length = 6 then s.receiveGroup c data side crc wire else s
      | .lost path wire seq => s.losePort c 0 path wire seq)

/-! ### Aperture requests (R725-R728) -/

namespace State

def setReq (s : State) (c i : Nat) (f : ApReq → ApReq) : State :=
  let p := s.port c
  s.setPort c { p with requests := p.requests.zipIdx.map fun (r : ApReq × Nat) => if r.2 = i then f r.1 else r.1 }

/-- The island reports a trap of a cluster before the cluster does (R730). -/
def noteReported (s : State) (c : Nat) : State := s.setPort c { s.port c with reported := (s.port c).reported + 1 }

/-- A refused request moves no byte, is answered with TRAP, and is reported (R463, R726, R728, Table 16-10). -/
def refuseAp (s : State) (c i cause : Nat) (r : ApReq) : State :=
  ((s.setReq c i fun r => { r with answer := some (2, []) }).noteReported c).raise 0x0C02 sevDegraded (clusterUnit c)
    [(8, 0), (8, cause), (4, r.slot), (48, r.offset)]

/-- Why the island refuses a request: 1 offset, 2 slot unmapped, 3 right, 4 tag. -/
def apCause (s : State) (c : Nat) (r : ApReq) : Option Nat :=
  let n := 2 ^ r.size
  if r.tag > 63 || r.reused then some 4
  else match s.xlat.apertures.get? (apertureKey c r.slot) with
    | none => some 2
    | some m =>
      if r.offset + n > m.len || r.offset % n != 0 then some 1
      else if !(match r.op with | 0 => m.r | 1 => m.w | _ => m.a) then some 3
      else none

/-- Elements of a reducer request. -/
def apCount (r : ApReq) : Nat := if elemBytes r.type = 0 then 0 else 2 ^ r.size / elemBytes r.type

/-- The DPA of a request that passed its checks. -/
def apDpa (s : State) (c : Nat) (r : ApReq) : Option Nat :=
  (s.xlat.apertures.get? (apertureKey c r.slot)).bind fun m => (s.polder? m.polder).bind fun p => p.dpa (m.offset + r.offset)

/-- Index of the oldest request with a tag that has neither an answer nor passed on. -/
def apOpen (s : State) (c tag : Nat) : Option Nat :=
  (s.port c).requests.findIdx? fun r => r.tag == tag && r.answer.isNone && !r.passed && !r.more

/-- The 128-byte line that a request reaches, if it passes the island's checks. -/
def apLine (s : State) (c : Nat) (r : ApReq) : Option Nat := if (s.apCause c r).isSome then none else (s.apDpa c r).map (· / 128)

/-- An earlier request of the port to the same line has not been applied (R727). -/
def apBehind (s : State) (c i : Nat) (r : ApReq) : Bool :=
  (s.apLine c r).isSome && ((s.port c).requests.take i).any fun q => q.answer.isNone && s.apLine c q == s.apLine c r

/-- Serves one request at its line's home slice (R727, Table 8-1). -/
def serveAp (s : State) (c i : Nat) (r : ApReq) (faults : List WordFault) : State :=
  match s.apCause c r with
  | some cause => s.refuseAp c i cause r
  | none =>
    match s.apDpa c r with
    | none => s.refuseAp c i 1 r
    | some a =>
      if r.op > 2 || (r.op == 2 && !redFits r.type (apCount r) a) then (s.refuseAp c i (s.freeNat % 256) r).tickFree
      else if r.op = 2 then s.setReq c i fun r => { r with passed := true }
      else
        let s' := s.lineFaults (homeSlice a) (a / 128) faults
        if s'.lineWaits a then s
        else if r.op = 1 then (s'.lineWrite a (r.data.take (2 ^ r.size))).setReq c i fun r => { r with answer := some (0, []) }
        else
          let (s, out) := s'.lineRead a (2 ^ r.size) true
          s.setReq c i fun r => { r with answer := some (if out.bad.isSome then (1, []) else (0, out.bytes)) }

/-- The header of a response, and its data (Table 16-4). -/
def apAnswer (r : ApReq) (status : Nat) (data : Bytes) : List Group :=
  let head := toLE 1 r.op ++ toLE 1 0 ++ toLE 1 r.tag ++ toLE 1 0 ++ toLE 1 status ++ toLE 59 0
  if data.length = 128 then
    [{ type := grpAperture, data := fitBytes 128 head }, { type := grpAperture, last := true, data := data }]
  else [{ type := grpAperture, last := true, data := head ++ fitBytes 64 data }]

end State

/-- R463, R725-R728. -/
def execApertureRequest (c tag : Nat) (faults : List WordFault) (s : State) : Host.Outcome State Fault Refusal :=
  .next (if !s.d2dRuns c then s
    else match s.apOpen c tag with
      | none => s
      | some i =>
        match (s.port c).requests[i]? with
        | none => s
        | some r => if s.apBehind c i r then s else s.serveAp c i r faults)

/-- R725, R727: the oldest answered request with the tag returns. -/
def execApertureResponse (c tag : Nat) (s : State) : Host.Outcome State Fault Refusal :=
  .next (if !s.d2dRuns c then s
    else
      let p := s.port c
      match p.requests.find? fun r => r.tag == tag && r.answer.isSome with
      | none => s
      | some r =>
        match r.answer with
        | none => s
        | some (status, data) =>
          (s.setPort c { p with requests := dropFirst r p.requests }).sendGroups c (State.apAnswer r status data))

/-! ### CTRL messages (R639, R722, R729, R730) -/

namespace State

/-- The oldest CTRL message, where it is of a kind. -/
def takeMessage (s : State) (c kind : Nat) : Option (State × Bytes) :=
  let p := s.port c
  match p.ctrl with
  | [] => none
  | m :: rest => if byteAt m 0 = kind then some (s.setPort c { p with ctrl := rest }, m) else none

end State

/-- R639, R729: a post to a sequencer of the program that the cluster's caddy runs; any other is refused. -/
def execSignalMessage (c rank : Nat) (s : State) : Host.Outcome State Fault Refusal :=
  .next (if !s.d2dRuns c then s
    else match s.takeMessage c 1 with
      | none => s
      | some (s, m) =>
        let target := (s.port c).caddy.bind fun slot => (s.inf.caddies.get? slot).bind fun d =>
          if d.state = 4 then d.bound.bind fun b => b.seqs[rank]? else none
        match target with
        | none => s
        | some q => s.postCounter q (byteAt m 2 % 32) (fieldAt m 4 2))

/-- R730: a trap that the island has reported already is reported no second time. -/
def execTrapMessage (c : Nat) (s : State) : Host.Outcome State Fault Refusal :=
  .next (if !s.d2dRuns c then s
    else match s.takeMessage c 2 with
      | none => s
      | some (s, m) =>
        let p := s.port c
        if p.reported != 0 && Config.trapOfIsland (byteAt m 1) then s.setPort c { p with reported := p.reported - 1 }
        else s.raise 0x0C02 sevDegraded (clusterUnit c) [(8, 1), (8, byteAt m 1), (4, 0), (48, 0), (28, fieldAt m 8 4)])

/-- R722: the totals a cluster advertises at training. -/
def execCreditsMessage (c : Nat) (s : State) : Host.Outcome State Fault Refusal :=
  .next (if !s.d2dRuns c then s
    else match s.takeMessage c 3 with
      | none => s
      | some (s, m) =>
        let p := s.port c
        let s := s.setPort c { p with credit := ⟨(List.range 9).map fun u => (u, byteAt m (1 + u))⟩, sent := {} }
        State.drain p.txq.length c s)

/-! ### The fetch lane (R731-R735, Table 16-6) -/

namespace State

/-- Sends a response frame with its acknowledgement and CRC. -/
def putFetch (s : State) (c : Nat) (g : Group) : State :=
  let p := s.port c
  let body := fitBytes 66 g.data ++ toLE 1 g.seq ++ toLE 1 ((p.fetch.rxSeq + 127) % 128 + 128) ++ toLE 1 (natOf p.fetch.nakDue)
    ++ toLE 9 0
  (s.setPort c { p with fetch := { p.fetch with nakDue := false } }).emit (.d2d c 2 (body ++ toLE 2 (crc16 body)))

def sendFetch (s : State) (c : Nat) (line : Bytes) (tag status : Nat) : State :=
  let p := s.port c
  let g : Group := { seq := p.fetch.txSeq, type := grpCtrl, data := fitBytes 64 line ++ toLE 1 (tag + 16 * status) ++ toLE 1 0 }
  (s.setPort c { p with fetch := { p.fetch with txSeq := (p.fetch.txSeq + 1) % 128, unacked := p.fetch.unacked ++ [g] } }).putFetch c g

/-- Polder, offset and length of a cluster's fetch window. -/
def fetchWindow (s : State) (slot : Nat) : Nat × Nat × Nat :=
  match s.inf.caddies.get? slot with
  | none => (0, 0, 0)
  | some d =>
    match d.firstSection 2 with
    | none => (0, 0, 0)
    | some i => ((d.sectionAt i).1, (d.sectionAt i).2, d.infusedOf i)

/-- Answers one fetch (R733-R735); the line of an answer other than OK holds free bytes. -/
def answerFetch (s : State) (c line tag : Nat) (faults : List WordFault) : State :=
  let none_ := fun (s : State) (status : Nat) =>
    let free := (List.range 64).map fun i => Config.freeByte (s.freeCtr + i)
    State.sendFetch { s with freeCtr := s.freeCtr + 64 } c free tag status
  match (s.port c).caddy with
  | none => none_ s 3
  | some slot =>
    let (p, o, len) := s.fetchWindow slot
    if 64 * line ≥ len then none_ s 2
    else
      let place := Place.polder p (o + 64 * line)
      let dpa := ((s.polder? p).bind fun x => x.dpa (o + 64 * line)).getD 0
      let (s, r) := (s.placeFaults place faults).polderRead p (o + 64 * line) 64 true
      match r.bad with
      | none => s.sendFetch c r.bytes tag 0
      | some b =>
        let cause := match b with | .uncorrectable => 0 | .unwritten => 1 | .basin => 2
        none_ ((s.noteReported c).raise 0x0C01 sevFailed (clusterUnit c) [(18, line), (2, cause), (12, 0), (48, dpa), (14, slot)]) 1

/-- The line of a fetch cannot be read now, or 16 responses are unacknowledged. -/
def fetchWaits (s : State) (c line : Nat) : Bool :=
  decide ((s.port c).fetch.unacked.length ≥ 16) || match (s.port c).caddy with
    | none => false
    | some slot =>
      let (p, o, len) := s.fetchWindow slot
      decide (64 * line < len) && s.placeWaits (.polder p (o + 64 * line)) 64

/-- Acknowledgement of a fetch frame (R714, R715). -/
def takeFetchSide (s : State) (c frame : Nat) : State :=
  let p := s.port c
  let un := if bitOf frame 7 then afterAck (bitsOf frame 8 7) p.fetch.unacked else p.fetch.unacked
  let s := s.setPort c { p with fetch := { p.fetch with unacked := un } }
  if bitOf frame 15 then un.foldl (fun s g => s.putFetch c g) s else s

end State

/-- R712-R719, R732-R735. -/
def execFetchRequest (c frame wire : Nat) (faults : List WordFault) (s : State) : Host.Outcome State Fault Refusal :=
  .next (if !s.d2dRuns c then s
    else
      let p := s.port c
      let seq := frame % 128
      let discard := fun (s : State) =>
        let p := s.port c
        if p.fetch.nakSent then s else s.setPort c { p with fetch := { p.fetch with nakSent := true, nakDue := true } }
      if crc16 (toLE 6 frame) ≠ bitsOf frame 48 16 then
        let fails := if seq = p.fetch.rxSeq then p.fetch.fails + 1 else p.fetch.fails
        let s := s.setPort c { p with retries := p.retries + 1, fetch := { p.fetch with fails := fails } }
        if fails ≥ 8 then s.losePort c 0 2 wire seq else discard s
      else
        let s1 := s.takeFetchSide c frame
        if seq ≠ (s1.port c).fetch.rxSeq then discard s1
        else if s1.fetchWaits c (bitsOf frame 16 18) then s
        else
          let q := s1.port c
          let s2 := s1.setPort c { q with fetch := { q.fetch with rxSeq := (q.fetch.rxSeq + 1) % 128, nakSent := false, fails := 0 } }
          s2.answerFetch c (bitsOf frame 16 18) (bitsOf frame 34 4) faults)

/-! ### The power sideband (R738, R739, R741, R742) -/

namespace State

/-- A PSB message whose CRC holds (R738). -/
def psbOk (s : State) (d : Nat) (body : Bytes) (crc kind : Nat) (f : Die → Die) : State :=
  if d ≥ 4 then s
  else if body.length ≠ 32 || crc16 body ≠ crc then s.setDie d { s.die d with psbErrors := (s.die d).psbErrors + 1 }
  else if byteAt body 0 ≠ kind then s
  else s.setDie d (f (s.die d))

/-- A die fails its boot handshake: it leaves service with its clusters (R250, R27). -/
def failDie (s : State) (d : Nat) : State :=
  let s := s.wireDead d (dieUnit d) 3 3 0x1FF 0
  let s := s.changeUnit (dieUnit d) .outOfService byBoot
  (List.range 64).foldl (fun s i => s.changeUnit (clusterUnit (64 * d + i)) .outOfService byBoot) s

/-- A returning die fails its handshake: it goes back to OUT_OF_SERVICE, and so do the clusters that return with it
(R742, R948). -/
def failReturning (s : State) (d : Nat) : State :=
  let s := (s.wireDead d (dieUnit d) 3 3 0x1FF 0).changeUnit (dieUnit d) .outOfService byFailure
  (List.range 64).foldl (fun s i =>
    let c := clusterUnit (64 * d + i)
    if s.unitState c = .returning then s.changeUnit c .outOfService byFailure else s) s

end State

/-- R742: protocol version 1 and 64 clusters, else the handshake fails. -/
def execPsbIdentity (d : Nat) (body : Bytes) (crc : Nat) (s : State) : Host.Outcome State Fault Refusal :=
  let ok := byteAt body 1 == 1 && byteAt body 2 == 64
  let s' := s.psbOk d body crc 0x80 fun x => { x with ready := true, identity := fieldAt body 4 4, checked := ok }
  let bad := decide (d < 4) && body.length == 32 && crc16 body == crc && byteAt body 0 == 0x80 && !ok
  .next (if bad && s.inService (dieUnit d) then s'.failDie d
    else if bad && s.unitState (dieUnit d) = .returning then s'.failReturning d else s')

/-- R742: 50 ms after DRST_N without DREADY and IDENTITY. -/
def execDieHandshakeTimeout (d : Nat) (s : State) : Host.Outcome State Fault Refusal :=
  .next (if d ≥ 4 || (s.die d).checked then s
    else if s.boot.step = 13 && s.inService (dieUnit d) then s.failDie d
    else if s.unitState (dieUnit d) = .returning then
      s.failReturning d
    else s)

/-- R739: eight powers in 10 mW. -/
def execPsbClusterPower (d : Nat) (body : Bytes) (crc : Nat) (s : State) : Host.Outcome State Fault Refusal :=
  let first := byteAt body 1
  .next (s.psbOk d body crc 0x81 fun x =>
    if first % 8 != 0 || first ≥ 64 then x
    else { x with powers := (List.range 8).foldl (fun b i => b.set (first + i) (fieldAt body (2 + 2 * i) 2)) x.powers })

/-- R739: eight of the die's 16 temperatures in 0.1 °C (Table 20-2). -/
def execPsbSensors (d : Nat) (body : Bytes) (crc : Nat) (s : State) : Host.Outcome State Fault Refusal :=
  let first := byteAt body 1
  let s' := s.psbOk d body crc 0x82 fun x =>
    if first % 8 != 0 || first ≥ 16 then x
    else { x with sensors := (List.range 8).foldl (fun b i => b.set (first + i) ⟨fieldAt body (2 + 2 * i) 2, 0⟩) x.sensors }
  let ok := decide (d < 4) && body.length == 32 && crc16 body == crc && byteAt body 0 == 0x82
  .next (if ok then { s' with power := { s'.power with silent := s'.power.silent.set d 0 } } else s')

/-- R741: grants in force whose bits are clear end, and their tokens return. -/
def execPsbGrants (d : Nat) (body : Bytes) (crc : Nat) (s : State) : Host.Outcome State Fault Refusal :=
  let map := fieldAt body 8 8
  let ok := decide (d < 4) && body.length == 32 && crc16 body == crc && byteAt body 0 == 0x83
  let s' := s.psbOk d body crc 0x83 fun x => { x with grants := map }
  let ended := ((List.range 64).filter fun i => !bitOf map i && (s'.port (64 * d + i)).grant.isSome).map (64 * d + ·)
  .next (if ok && !ended.isEmpty then (s'.endGrants ended).sendState d else s')

end Sys2Proof.Machine
end

