-- ==== Sys2Proof/Machine/LinkRows.lean ====
section
/-! DEFINITION. What arrives on a link port's lanes, its timers, and training (chapter 17). -/

namespace Sys2Proof.Machine

/-! ### A flit received (Table 17-5) -/

def RxFlit.header (f : RxFlit) : Nat := 256 * byteAt f.bytes 0 + byteAt f.bytes 1
def RxFlit.kind (f : RxFlit) : Nat := bitsOf f.header 0 2
def RxFlit.seq (f : RxFlit) : Nat := bitsOf f.header 2 7
def RxFlit.ack (f : RxFlit) : Nat := bitsOf f.header 9 7
def RxFlit.payload (f : RxFlit) : Bytes := (f.bytes.drop 2).take 64

/-- Its CRC is correct, and no uncorrectable codeword covers any of its bits (R760, R766). -/
def RxFlit.good (f : RxFlit) : Bool :=
  !f.lost && flitCrc (f.bytes.take 66) == 256 * byteAt f.bytes 66 + byteAt f.bytes 67

/-- The port listens to flits: IDENTIFY to QUARANTINE, or a retrain that agrees new keys (Table 17-2). -/
def LinkPort.hears (x : LinkPort) : Bool :=
  x.state == portIdentify || x.state == portActive || x.state == portQuarantine || x.state == portRetrain

namespace State

/-- The port and the island of its lanes work. -/
def portRuns (s : State) (p : Nat) : Bool := decide (p < 48) && !s.islandHalted (92 + p) && (s.lport p).hears

/-- Counts what decoding found in a superframe (R757, R766, R806, Table 17-3 cause 1); stuff violations count with the
codewords in error in parity symbols only, as R806 has it (log entry 75). -/
def countCodewords (s : State) (p : Nat) (found : List FecOutcome) (violations : Nat) : State :=
  let x := s.lport p
  let bad := found.count .uncorrectable
  let at_ := List.replicate (min bad 17) s.now ++ x.uncorrAt.filter fun t => decide (s.now < t + 1000000)
  let s := s.setLport p { x with corrected := x.corrected + found.count .corrected
                                 checkOnly := x.checkOnly + found.count .parity + violations
                                 uncorrectable := x.uncorrectable + bad, uncorrAt := at_ }
  if at_.length > 16 then s.leaveActive p leaveCodewords 7 else s

/-- A superframe arrives on the four lanes: stuffing and slack removed, descrambled, decoded, and its flits queued (R750-R758). -/
def hearLine (s : State) (p : Nat) (line : List (List Nat)) : State :=
  if line.length ≠ 4 then s
  else
    let x := s.lport p
    let got := line.zipIdx.map fun l => takeFrame ((x.rxLanes[l.2]?).getD {}) l.1
    let decoded := (wordsOfLanes (got.map (·.2.1))).map fecDecode
    let flits := (flitsOf decoded).map fun f => (⟨f.1, f.2⟩ : RxFlit)
    (s.setLport p { x with rxLanes := got.map (·.1), rxq := x.rxq ++ flits }).countCodewords p (decoded.map (·.2))
      (got.foldl (fun n g => n + g.2.2) 0)

/-- Flits up to `ack` are acknowledged (R768). -/
def ackFlits (s : State) (p ack : Nat) : State :=
  let x := s.lport p
  if x.unacked.any fun u => u.seq == ack then
    s.setLport p { x with unacked := (x.unacked.dropWhile fun u => u.seq != ack).drop 1, ackedAt := s.now }
  else s

/-- One nak until the expected flit comes (R767). -/
def nakOnce (s : State) (p : Nat) : State :=
  let x := s.lport p
  if x.nakSent then s else (s.setLport p { x with nakSent := true }).putLink p true false

/-- A sequenced flit with correct bits is accepted when it is the next expected (R766, R767). -/
def takeSequenced (s : State) (p seq : Nat) : State × Bool :=
  let x := s.lport p
  if seq = x.rxSeq then (s.setLport p { x with rxSeq := (x.rxSeq + 1) % 128, nakSent := false }, true)
  else (s.nakOnce p, false)

/-- Every unacknowledged flit again, from the oldest (R769); one replayed 16 times ends the link (cause 2). -/
def resendAll (s : State) (p : Nat) : State :=
  let x := s.lport p
  let again := x.unacked.map fun (u : SentFlit) => { u with replays := u.replays + 1 }
  let s := s.setLport p { x with unacked := again, replays := x.replays + again.length, ackedAt := s.now }
  let s := again.foldl (fun s u => s.putFlit p u.kind u.seq u.payload) s
  if again.any fun u => u.replays ≥ 16 then s.leaveActive p leaveReplays 7 else s

/-- What the port may send now goes out, and an IDLE flit carries the acknowledgement (R768, R770). -/
def answerFlit (s : State) (p : Nat) : State :=
  if (s.lport p).hears then ((drainPort ((s.lport p).txq.length + 2) p s)).putFlit p 0 0 [] else s

/-- The oldest flit received and not yet heard, where it is of a kind: a bad one is discarded with a nak where it was
sequenced; a good one acknowledges, and `take` says what it brings. -/
def hearFlit (s : State) (p : Nat) (want : Nat → Bool) (take : State → RxFlit → State) : State :=
  let x := s.lport p
  match x.rxq with
  | [] => s
  | f :: rest =>
    if !x.hears || !want f.kind then s
    else
      let s := s.setLport p { x with rxq := rest }
      if !f.good then (if f.kind = 1 || f.kind = 2 then s.nakOnce p else s)
      else
        let s := s.setLport p { s.lport p with acceptedAt := s.now }
        (take (s.ackFlits p f.ack) f).answerFlit p

end State

/-- R751-R757, R760, R766-R768: a DATA or IDLE flit, the first of the superframe on the lanes if there is one. -/
def execFlitReceived (p : Nat) (line : List (List Nat)) (s : State) : Host.Outcome State Fault Refusal :=
  .next (if !s.portRuns p then s
    else (s.hearLine p line).hearFlit p (fun k => decide (k < 2)) fun s f =>
      if f.kind = 0 then s
      else
        let (s, ok) := s.takeSequenced p f.seq
        if !ok then s
        else
          let x := s.lport p
          s.setLport p { x with rxHeld := x.rxHeld ++ [f.payload] })

/-- The tag, number and count of a TAG flit are those of the segment held (R763, R764). -/
def LinkPort.segmentOk (x : LinkPort) (f : RxFlit) : Bool :=
  match x.keys with
  | none => false
  | some k =>
    let b := f.payload
    fieldAt b 16 8 == x.rxSegment && byteAt b 24 == x.rxHeld.length
      && b.take 16 == segmentTag k.rxKey k.rxSalt x.rxSegment x.rxHeld.length x.rxHeld.flatten

/-- R763, R764: a TAG flit closes its segment; its tag is checked under the keys of the link. -/
def execTagFlitReceived (p : Nat) (line next : List (List Nat)) (s : State) : Host.Outcome State Fault Refusal :=
  .next (if !s.portRuns p then s
    else
      let s := s.hearLine p line
      if !s.portRuns p then s
      else (s.hearLine p next).hearFlit p (fun k => k == 2) fun s f =>
        let (s, ok) := s.takeSequenced p f.seq
        if !ok then s
        else
          let x := s.lport p
          if x.segmentOk f then s.passSegment p
          else (s.setLport p { x with rxHeld := [] }).leaveActive p leaveTag 7)

/-- R767, R769, R770, R783: a LINK flit. -/
def execLinkFlitReceived (p : Nat) (line : List (List Nat)) (s : State) : Host.Outcome State Fault Refusal :=
  .next (if !s.portRuns p then s
    else (s.hearLine p line).hearFlit p (fun k => k == 3) fun s f =>
      let x := s.lport p
      let b := f.payload
      let credit := (List.range 3).foldl (fun (m : Bank Nat) c => m.set c (fieldAt b (2 + 2 * c) 2)) x.credit
      let s := s.setLport p { x with credit := credit }
      let s := if bitOf (byteAt b 0) 0 then s.resendAll p else s
      if bitOf (byteAt b 0) 1 then s.leaveActive p leaveSilent 7 else s)

/-- R765, R769: 2 µs with unacknowledged flits and no advance. -/
def execReplayTimeout (p : Nat) (s : State) : Host.Outcome State Fault Refusal :=
  let x := s.lport p
  .next (if s.portRuns p && !x.unacked.isEmpty && decide (x.ackedAt + 2000 ≤ s.now) then s.resendAll p else s)

/-- R783, Table 17-3 cause 3: 10 µs without a flit accepted. -/
def execPartnerSilent (p : Nat) (s : State) : Host.Outcome State Fault Refusal :=
  .next (if s.portRuns p && decide ((s.lport p).acceptedAt + 10000 ≤ s.now) then s.leaveActive p leaveSilent 7 else s)

/-- Table 17-3 cause 7: the reference of a quadrant is lost in service. -/
def execLinkRefclkLost (q : Nat) (s : State) : Host.Outcome State Fault Refusal :=
  .next (if q ≥ 4 then s else (List.range 12).foldl (fun s i => s.leaveActive (12 * q + i) leaveRefclk 7) s)

/-- Table 17-3 cause 4; a running MARGIN scan of the lane ends (R792). -/
def execBlockLockLost (p lane : Nat) (s : State) : Host.Outcome State Fault Refusal :=
  let s := s.leaveActive p leaveBlockLock lane
  let x := s.lport p
  .next (match x.scanning with
    | some (l, _) =>
      if l = lane then
        (s.setLport p { x with scanning := none }).endRunning 0x1703 (portUnit p)
          { status := stState, detail := stateDetail 1 2 }
      else s
    | none => s)

/-- The first lane whose stuff debt is above 64 symbols, looking at `lane` first. -/
def LinkPort.owing (x : LinkPort) (lane : Nat) : Option Nat :=
  let late := fun (l : LinkLane) => decide (l.debt > 64)
  if ((x.txLanes[lane]?).map late).getD false then some lane else x.txLanes.findIdx? late

/-- Up to `n` superframes, until an ACTIVE port owes more than 64 symbols on a lane. -/
def State.putSuperframes : Nat → Nat → State → State
  | 0, _, s => s
  | n + 1, p, s =>
    let s := s.putSuperframe p
    if s.portUp p && ((s.lport p).owing 0).isSome then s else s.putSuperframes n p

/-- R750-R758, Table 17-3 cause 6: superframes go out on the lanes; a lane that owes more than 64 symbols ends the link. -/
def execStuffDebtOverflow (p lane frames : Nat) (s : State) : Host.Outcome State Fault Refusal :=
  .next (if !s.portRuns p then s
    else
      let s := s.putSuperframes frames p
      match (s.lport p).owing lane with
      | some lane => s.leaveActive p leaveStuff lane
      | none => s)

/-! ### Training (R773-R780, R786-R789) -/

/-- All four lanes. -/
def allLanes : Nat := 15

/-- R773: DETECT until frames are seen on all lanes, EQUALISE until both ends report done on each, ALIGN until the
lanes are aligned within 1,024 symbols (Table 17-2); a retrain does the last two in RETRAIN. -/
def execTrainingFrame (p : Nat) (f : TrainFrame) (s : State) : Host.Outcome State Fault Refusal :=
  let x := s.lport p
  let valid := decide (f.lane < 4) && byteAt f.bytes 0 == f.lane && fieldAt f.bytes 8 2 == flitCrc (f.bytes.take 8)
  let training := x.work.isSome
    && (x.state == portDetect || x.state == portEqualise || x.state == portAlign || x.state == portRetrain)
  .next (if p ≥ 48 || !training || !valid || s.islandHalted (92 + p) then s
    else if f.fails then s.trainingFails p
    else
      let bit := 2 ^ f.lane
      let answer := fun (s : State) => s.putFrame p f.lane f.request (f.status % 64 + 64 * natOf f.done) f.preset
      if x.state = portDetect then
        let seen := Nat.lor x.seen bit
        answer (s.setLport p { x with seen := seen, state := if seen = allLanes then portEqualise else portDetect })
      else if x.state = portEqualise then
        let adapted := if f.done && bitOf (byteAt f.bytes 3) 6 then Nat.lor x.adapted bit else x.adapted
        let next := if x.work = some .qualify then portQualify else portAlign
        let s := answer (s.setLport p { x with adapted := adapted, state := if adapted = allLanes then next else portEqualise })
        if adapted = allLanes && next = portQualify then s.emit (.prbs31 p) else s
      else
        match f.aligned with
        | none => s
        | some skew =>
          if skew > 1024 then s.trainingFails p
          else if x.state = portRetrain && x.ephemeral.isSome then s
          else
            let s := if x.state = portAlign then s.setLport p { x with state := portIdentify } else s
            (s.alignLanes p f.lanes).beginIdentify p)

/-- R775-R777, R909, R930, R940: the partner's chain, its signed ephemeral key, and the keys derived from the secret.
The sealed island gives an ephemeral key while its entropy source works, and loads link keys while debug is locked. -/
def execIdentifyExchange (p : Nat) (chain : Bool) (i : PartnerIdentity) (s : State) : Host.Outcome State Fault Refusal :=
  let x := s.lport p
  let keys := if s.sealed.entropyFailed || s.sealed.unlocked.isSome then none else s.agreedKeys p chain i
  .next (if p ≥ 48 || x.keyed || !(x.state == portIdentify || x.state == portRetrain) then s
    else match keys with
      | some k => s.linkKeyed p (sha384 i.key) k
      | none => if x.state = portIdentify then s.trainingFails p else s)

/-- R778, R825-R827: the partner's manifest decides. In a retrain it is kept for the retrain's end. -/
def execManifestMessage (p : Nat) (s : State) : Host.Outcome State Fault Refusal :=
  let x := s.lport p
  .next (if p ≥ 48 || !x.keyed || !(x.state == portIdentify || x.state == portRetrain) then s
    else
      match s.takeArrived p fun c b => c == clsMgmt && byteAt b 0 == 1 with
      | (s, none) => s
      | (s, some m) =>
        let s := s.setLport p { s.lport p with member := byteAt m 1, manifest := (m.drop 8).take 48 }
        let own := x.identity == s.flash.identity
        if x.state = portRetrain then
          if s.compatible m own then s else s.setLport p { s.lport p with keys := none, ephemeral := none }
        else if s.compatible m own then s.enterActive p
        else s.enterQuarantine p)

/-- R785: a retrain reaches ACTIVE when its last step succeeds and new keys and a compatible manifest are in place. -/
def execLinkRetrainEnd (p : Nat) (ok : Bool) (s : State) : Host.Outcome State Fault Refusal :=
  let x := s.lport p
  .next (if p ≥ 48 || x.state ≠ portRetrain then s
    else if ok && x.keyed && !x.manifest.isEmpty then s.enterActive p
    else s.trainingFails p)

/-- R787: a lane's PRBS31 checker locks. -/
def execQualifyCheckerLock (p lane : Nat) (s : State) : Host.Outcome State Fault Refusal :=
  let x := s.lport p
  .next (if p ≥ 48 || lane ≥ 4 || x.state ≠ portQualify then s
    else
      let locked := Nat.lor x.locked (2 ^ lane)
      s.setLport p { x with locked := locked, lockedAt := if locked = allLanes then x.lockedAt.or (some s.now) else none })

/-- R787-R789: the duration ends. Each lane compared 112,500 bits in each microsecond of it. -/
def execQualifyEnd (p : Nat) (errors : List Nat) (s : State) : Host.Outcome State Fault Refusal :=
  let x := s.lport p
  .next (if p ≥ 48 || x.work ≠ some .qualify then s
    else
      let micros := match s.findRunning 0x1702 (portUnit p) with
        | some r => r.cmd.u32 24
        | none => 0
      let locked := x.lockedAt.isSome
      let lane := fun i => toLE 8 (if locked then (errors[i]?).getD 0 else 0)
      (s.setLport p x.untrained).endRunning 0x1702 (portUnit p)
        { status := stOk
          result := lane 0 ++ lane 1 ++ lane 2 ++ lane 3 ++ toLE 8 (if locked then 112500 * micros else 0) })

/-- The 6,208 bytes of a MARGIN result (Table 17-7). -/
def marginBytes (lane : Nat) (m : MarginScan) (start end_ : Nat) : Bytes :=
  let head := toLE 1 lane ++ toLE 1 3 ++ toLE 1 32 ++ toLE 1 32 ++ toLE 4 (2 ^ 20) ++ toLE 2 m.vstep ++ toLE 6 0
    ++ toLE 8 start ++ toLE 8 end_ ++ fitBytes 3 m.widths ++ fitBytes 3 m.heights
  fitBytes 64 head ++ fitBytes 6144 (m.cells.flatMap fun v => toLE 2 (min v 65535))

/-- R791-R794: the scan completes; its result is held, and answers the command that ran it. -/
def execMarginScanEnd (p lane : Nat) (m : MarginScan) (s : State) : Host.Outcome State Fault Refusal :=
  let x := s.lport p
  .next (match x.scanning with
    | none => s
    | some (l, start) =>
      if l ≠ lane then s
      else
        let r := marginBytes lane m start (s.follower (92 + p))
        let s := s.setLport p { x with scanning := none, margins := x.margins.set lane r }
        let short := match s.findRunning 0x1703 (portUnit p) with
          | some c => c.cmd.isSideband
          | none => false
        s.endRunning 0x1703 (portUnit p) { status := stOk, data := if short then r.take 64 else r })

end Sys2Proof.Machine
end

