-- ==== Sys2Proof/Machine/LinkCommands.lean ====
section
/-! DEFINITION. Kymal group 0x17: link ports, trunks, windows and the cohort (chapters 04, 17, 18). -/

namespace Sys2Proof.Machine

def badPort (u off : Nat) : List Nat := badUnit u off (· == 0x05)

/-- The port is in service (Table 4-15). -/
def State.portServes (s : State) (u : Nat) : Option Fail := if s.inService u then failState 1 0 else none

/-- R774, R780, R251. -/
def portTrainCmd : Cmd where
  opcode := 0x1701
  primary := .res
  lease := .excl
  accepted := true
  vf := false
  layout := [(16, 2, 0xFFFF)]
  ref _ k := k.u16 16
  bad _ k := badPort (k.u16 16) 16
  check6 s k := s.portServes (k.u16 16)
  effect s k :=
    let p := unitIndex (k.u16 16)
    if s.cannotTrain p then
      { state := s, outcome := some { status := stState, detail := stateDetail 1 2, result := toLE 1 portOff } }
    else { state := s.beginTraining p (.train 0x1701) }

def execPortTrain (k : KCmd) (s : State) : Host.Outcome State Fault Refusal := .next (s.kymal portTrainCmd k)

/-- R786. -/
def portQualifyCmd : Cmd where
  opcode := 0x1702
  primary := .res
  lease := .excl
  accepted := true
  vf := false
  layout := [(16, 2, 0xFFFF), (24, 4, 2 ^ 32 - 1)]
  ref _ k := k.u16 16
  bad _ k := badPort (k.u16 16) 16 ++ badIf (k.u32 24 < 1 || k.u32 24 > 10000000) 24
  check6 s k := s.portServes (k.u16 16)
  effect s k :=
    let p := unitIndex (k.u16 16)
    if s.cannotTrain p then
      { state := s, outcome := some { status := stState, detail := stateDetail 1 2 } }
    else { state := s.beginTraining p .qualify }

def execPortQualify (k : KCmd) (s : State) : Host.Outcome State Fault Refusal := .next (s.kymal portQualifyCmd k)

/-- The command reads a held result (R793). -/
def marginRead (k : KCmd) : Bool := bitOf (k.u8 19) 0

/-- R790-R794. Bytes 20-27, which Table 4-15 gives for a read, may hold anything on a scan (DESIGN CHOICE, log entry 76). -/
def portMarginCmd : Cmd where
  opcode := 0x1703
  minor := 1
  primary := .res
  lease := .shared
  accepted := true
  vf := false
  layout := [(16, 2, 0xFFFF), (18, 1, 0xFF), (19, 1, 1), (20, 4, 2 ^ 32 - 1), (24, 4, 2 ^ 32 - 1)]
  ref _ k := k.u16 16
  bad _ k := badPort (k.u16 16) 16 ++ badIf (k.u8 18 > 3) 18
    ++ (if marginRead k then
          badIf (k.u32 20 + k.u32 24 > 6208) 20
            ++ badIf (k.u32 24 < 1 || k.u32 24 > (if k.isSideband then 896 else 6208)) 24 ++ badBuffer k (k.u32 24)
        else badBuffer k 6208)
  check6 s k := (match s.unitState (k.u16 16) with
    | .draining => failState 1 1
    | .underTest => failState 1 3
    | .returning => failState 1 4
    | _ => none).or
    (if marginRead k && !(s.lport (unitIndex (k.u16 16))).margins.has (k.u8 18) then failState 2 0 else none)
  effect s k :=
    let p := unitIndex (k.u16 16)
    let x := s.lport p
    if marginRead k then
      { state := s
        outcome := some { status := stOk, data := ((x.margins.get [] (k.u8 18)).drop (k.u32 20)).take (k.u32 24) } }
    else { state := s.setLport p { x with scanning := some (k.u8 18, s.follower (92 + p)) } }

def execPortMargin (k : KCmd) (s : State) : Host.Outcome State Fault Refusal := .next (s.kymal portMarginCmd k)

/-- Ports listed in a mask. -/
def portsIn (mask : Nat) : List Nat := (List.range 48).filter (bitOf mask)

/-- Listed ports leave the trunks they were in, and form trunk `t` (R796, R798). -/
def State.setTrunk (s : State) (t mask : Nat) : State :=
  let trunks : Bank Nat := s.link.trunks.map fun _ (m : Nat) => (portsIn m).foldl (fun n i => if bitOf mask i then n else n + 2 ^ i) 0
  let trunks := ((trunks.keep fun _ m => m != 0).erase t)
  let up := (portsIn mask).find? s.portUp
  let partners := s.link.partners.erase t
  let partners := match up with
    | some p => partners.set t (s.lport p).identity
    | none => partners
  { s with link := { s.link with trunks := if mask = 0 then trunks else trunks.set t mask, partners := partners } }

/-- R796, R798, Table 4-15. -/
def trunkConfigCmd : Cmd where
  opcode := 0x1704
  primary := .res
  lease := .excl
  vf := false
  layout := [(16, 2, 0xFFFF), (18, 1, 0xFF), (24, 8, 2 ^ 48 - 1)]
  ref _ k := k.u16 16
  bad _ k :=
    let ps := portsIn (k.u64 24)
    badPort (k.u16 16) 16 ++ badIf (!ps.isEmpty && ps.head? != some (unitIndex (k.u16 16))) 16 ++ badIf (k.u8 18 > 23) 18
      ++ badIf (ps.length = 1 || ps.length > 8) 24
  also s k :=
    let out := portsIn (s.link.trunks.get 0 (k.u8 18))
    ((portsIn (k.u64 24) ++ out.filter fun p => !bitOf (k.u64 24) p).map portUnit).filter (· != k.u16 16)
  check7 s k := (portsIn (k.u64 24)).findSome? fun p => leaseFail s (portUnit p) k.master .excl false
  check10 s k :=
    let up := (portsIn (k.u64 24)).filter s.portUp
    if up.any fun p => up.any fun q => (s.lport p).identity != (s.lport q).identity then
      some { status := stConflict, detail := noHolder } else none
  effect s k := { state := s.setTrunk (k.u8 18) (k.u64 24) }

def execTrunkConfig (k : KCmd) (s : State) : Host.Outcome State Fault Refusal := .next (s.kymal trunkConfigCmd k)

/-- A WINDOW_SET names an outbound window. -/
def isOutbound (k : KCmd) : Bool := refKind (k.u32 16) == 5

def outWindowOf (k : KCmd) : OutWindow :=
  { member := k.u8 22, remote := k.u8 23, port := unitIndex (k.u16 24), r := bitOf (k.u8 26) 0, w := bitOf (k.u8 26) 1
    a := bitOf (k.u8 26) 2, base := k.u64 32, len := k.u64 40 }

def inWindowOf (k : KCmd) : InWindow :=
  { member := k.u8 22, ast := k.u16 24, r := bitOf (k.u8 26) 0, w := bitOf (k.u8 26) 1, a := bitOf (k.u8 26) 2
    base := k.u64 32, len := k.u64 40 }

/-- R815, R1030: the port of an outbound window is checked whether or not it is enabled, and an inbound window leaves byte 23
reserved; the other fields are judged only where the window is enabled (DESIGN CHOICE, log entry 76). An outbound window that is disabled or changes loses its translations before the reply. -/
def windowSetCmd : Cmd where
  opcode := 0x1705
  primary := .res
  lease := .excl
  vf := false
  layout := [(16, 4, 2 ^ 32 - 1), (20, 1, 1), (22, 1, 0xFF), (23, 1, 0xFF), (24, 2, 0xFFFF), (26, 1, 7), (32, 8, all8), (40, 8, all8)]
  ref _ k := k.u32 16
  bad _ k :=
    if !(refValid (k.u32 16) && (refKind (k.u32 16) == 5 || refKind (k.u32 16) == 6)) then [16]
    else
      let on := bitOf (k.u8 20) 0
      if isOutbound k then
        badIf (on && k.u8 22 > 63) 22 ++ badPort (k.u16 24) 24 ++ badIf (on && k.u64 40 > 2 ^ 32) 40
      else
        badIf (on && k.u8 22 > 63 && k.u8 22 != 0xFF) 22 ++ badIf (k.u8 23 != 0) 23
          ++ (if on then badIf (k.u16 24 > 4095) 24 ++ badIf (k.u64 32 ≥ 2 ^ 48) 32 ++ badIf (k.u64 32 + k.u64 40 > 2 ^ 48) 40 else [])
  check6 s k := if !isOutbound k && bitOf (k.u8 20) 0 then absent s (astRef (k.u16 24)) else none
  effect s k :=
    let n := refId (k.u32 16)
    let on := bitOf (k.u8 20) 0
    let c := s.cohort
    if isOutbound k then
      let s' := { s with cohort := { c with outWin := if on then c.outWin.set n (outWindowOf k) else c.outWin.erase n } }
      let s' := match c.outWin.get? n with
        | some w => if on && w == outWindowOf k then s' else s'.beginInval (.window n) (.command 0x1705 (k.u32 16))
        | none => s'
      { state := s', silent := s'.invalidating (k.u32 16) }
    else
      { state := { s with cohort := { c with inWin := if on then c.inWin.set n (inWindowOf k) else c.inWin.erase n } } }
  finish s r _ :=
    match r.outcome with
    | some f => some (s, f)
    | none => if s.invalidating r.ref then none else some (s, { status := stOk })

def execWindowSet (k : KCmd) (s : State) : Host.Outcome State Fault Refusal := .next (s.kymal windowSetCmd k)

/-! ### The cohort -/

/-- Where the compatibility list begins in the bytes of a COHORT_CONFIG: the shortest list that ends where they end
(DESIGN CHOICE, log entry 25); none when no split gives a blob of 64 to 4,096 bytes. -/
def compatAt (b : Bytes) : Option Nat :=
  ((List.range 17).map fun n => b.length - (4 + 4 * n)).find? fun at_ =>
    decide (64 ≤ at_) && decide (at_ ≤ 4096) && 4 + 4 * byteAt b at_ + at_ == b.length && fieldAt b (at_ + 1) 3 == 0

/-- The blob is laid out as Table 18-1. -/
def blobOk (b : Bytes) (size : Nat) : Bool :=
  b.take 8 == [0x4B, 0x59, 0x4D, 0x43, 0x4F, 0x48, 0x52, 0x54] && byteAt b 8 == 1 && byteAt b 9 == size
    && ((b.drop 10).take 6).all (· == 0) && ((b.drop 32).take 32).all (· == 0)

/-- The bytes of a configuration once whole: held pieces and this one. -/
def cohortBytes (s : State) (k : KCmd) : Bytes :=
  if k.isSideband && k.u32 20 != 0 then ((s.cohort.pieces.map (·.bytes)).getD []) ++ k.ext else k.ext

/-- Where the blob of a whole configuration ends, if its bytes are laid out as Tables 18-1 and 18-2 give. -/
def blobEnd (s : State) (k : KCmd) : Option Nat :=
  (compatAt (cohortBytes s k)).filter fun n => blobOk ((cohortBytes s k).take n) (k.u8 17)

/-- A piece out of order (R811): the offset of the field at fault. -/
def pieceBad (s : State) (k : KCmd) : Option Nat :=
  if !k.isSideband || k.u32 20 = 0 then none
  else
    match s.cohort.pieces with
    | none => some 20
    | some p => if p.bytes.length ≠ k.u32 20 then some 20 else if p.member ≠ k.u8 16 then some 16
      else if p.size ≠ k.u8 17 then some 17 else none

/-- R807-R811: all its fields, and the layout of what they hold, are judged at check 4. -/
def cohortConfigCmd : Cmd where
  opcode := 0x1706
  primary := .res
  lease := .excl
  vf := false
  layout := [(16, 1, 0xFF), (17, 1, 0xFF), (18, 1, 1), (20, 4, 2 ^ 32 - 1)]
  ref _ _ := wardenUnit
  bad s k := badIf (k.u8 16 > 63) 16 ++ badIf (k.u8 17 < 1 || k.u8 17 > 64) 17
    ++ (if k.isSideband then [] else badIf (bitOf (k.u8 18) 0) 18 ++ badIf (k.u32 20 != 0) 20 ++ badIf (!k.ind) 2)
    ++ (match pieceBad s k with
      | some off => [off]
      | none => badIf (!bitOf (k.u8 18) 0 && (k.isSideband || k.ind) && (blobEnd s k).isNone) 112)
  onBad s k := if (pieceBad s k).isSome then { s with cohort := { s.cohort with pieces := none } } else s
  check6 s _ := if (List.range 48).any fun p => s.inService (portUnit p) then failState 1 0 else none
  effect s k :=
    let b := cohortBytes s k
    if bitOf (k.u8 18) 0 then
      { state := { s with cohort := { s.cohort with pieces := some ⟨b, k.u8 16, k.u8 17⟩ } }, result := toLE 8 0 }
    else
      let n := (blobEnd s k).getD 0
      let c := { s.cohort with member := k.u8 16, size := k.u8 17, blob := b.take n, compat := b.drop n, pieces := none }
      let s := { s with cohort := c }
      { state := s, result := s.ownManifest.take 8 }

def execCohortConfig (k : KCmd) (s : State) : Host.Outcome State Fault Refusal := .next (s.kymal cohortConfigCmd k)

/-- R835. -/
def cohortEpochCmd : Cmd where
  opcode := 0x1707
  primary := .res
  lease := .excl
  vf := false
  layout := [(24, 8, all8)]
  ref _ _ := wardenUnit
  bad s k := badIf (k.u64 24 ≤ s.cohort.epoch.toNat) 24
  effect s k :=
    { state := { s with cohort := { s.cohort with epoch := BitVec.ofNat 64 (k.u64 24) } }
      result := toLE 8 s.cohort.epoch.toNat }

def execCohortEpoch (k : KCmd) (s : State) : Host.Outcome State Fault Refusal := .next (s.kymal cohortEpochCmd k)

/-- R831: the leader, the source and the tolerance; steering starts with the source's next estimate. -/
def timeLeaderSetCmd : Cmd where
  opcode := 0x1708
  primary := .res
  lease := .excl
  vf := false
  layout := [(16, 1, 0xFF), (18, 2, 0xFFFF), (24, 4, 2 ^ 32 - 1)]
  ref _ _ := wardenUnit
  bad _ k := badIf (k.u8 16 > 63 && k.u8 16 != 0xFF) 16
    ++ (if k.u16 18 = 0xFFFF then [] else badPort (k.u16 18) 18)
  effect s k :=
    let c := s.stopSteering.cohort
    { state := { s with cohort := { c with leader := k.u8 16, leaderPort := k.u16 18, lastEdge := none
                                           tolerance := if k.u32 24 = 0 then 1000 else k.u32 24 } } }

def execTimeLeaderSet (k : KCmd) (s : State) : Host.Outcome State Fault Refusal := .next (s.kymal timeLeaderSetCmd k)

end Sys2Proof.Machine
end

