-- ==== Sys2Proof/Machine/Cohort.lean ====
section
/-! DEFINITION. Remote requests at the completer, completions, relay, reducer operations and cohort time (chapters 13, 18). -/

namespace Sys2Proof.Machine

/-- A REQ transaction (Table 18-3). -/
def parseReq (b : Bytes) : RemoteOp :=
  let n := fieldAt b 4 2
  let red := byteAt b 0 == 3
  { op := byteAt b 0, tag := byteAt b 1, src := byteAt b 2 % 64, relayed := bitOf (byteAt b 2) 6, dst := byteAt b 3 % 64
    count := if red then n % 32 else n, type := if red then n / 256 % 8 else 0, window := byteAt b 6
    offset := fieldAt b 8 8, epoch := fieldAt b 16 8, data := b.drop 24 }

/-- Bytes a request touches. -/
def RemoteOp.bytes (r : RemoteOp) : Nat := if r.op = 3 then redBytes r.type r.count else r.count

/-- The right it needs: 0 R, 1 W, 2 A (R461, Table 18-4). -/
def RemoteOp.right (r : RemoteOp) : Nat := if r.op = 3 then 2 else if r.op = 2 then 1 else 0

def InWindow.grants (w : InWindow) (right : Nat) : Bool := if right = 0 then w.r else if right = 1 then w.w else w.a

/-- The transaction marked relayed (R800). -/
def markRelayed (b : Bytes) : Bytes :=
  overlay b 2 [BitVec.ofNat 8 (setBit (byteAt b 2) 6 true)]

namespace State

/-- Answers a REQ that came on port `p` (R797, R820). -/
def answerReq (s : State) (p : Nat) (r : RemoteOp) (status : Nat) (data : Bytes) : State := s.sendCpl p r.tag r.src status data

/-! ### Relay (R800-R802, R823, R824) -/

/-- The device's bit of the blob's relay mask. -/
def mayRelay (s : State) : Bool := decide (s.cohort.member < 64) && bitOf (fieldAt s.cohort.blob 24 8) s.cohort.member

/-- The relay table: the lowest ACTIVE port whose partner is a member (R823). -/
def portTo (s : State) (member : Nat) : Option Nat := (List.range 48).find? fun p => s.portUp p && (s.lport p).member == member

/-- The port a relayed request leaves on: that port, or the hash of the trunk that holds it (R796, R823). -/
def relayPort (s : State) (member addr : Nat) : Option Nat :=
  match s.portTo member with
  | none => none
  | some p =>
    match s.link.trunks.find? fun _ m => bitOf m p with
    | some (_, m) => match (portsIn m).head? with
      | some low => (s.routePort low addr).or (some p)
      | none => some p
    | none => some p

/-- Counts a relayed transaction refused (R801). -/
def countRefused (s : State) (p : Nat) : State :=
  let x := s.lport p
  s.setLport p { x with refused := min 65535 (x.refused + 1) }

/-- A REQ for another member (R800, R801, R823, R824). A LOST member relays nothing. -/
def relayReq (s : State) (p : Nat) (r : RemoteOp) (b : Bytes) : State :=
  if s.boot.device = .lost then s.answerReq p r cplFailed []
  else if r.relayed then (s.countRefused p).answerReq p r cplNoRoute []
  else if !s.mayRelay then s.answerReq p r cplNoRoute []
  else
    match s.relayPort r.dst r.offset with
    | none => s.answerReq p r cplNoRoute []
    | some o =>
      let s := { s with cohort := { s.cohort with relayed := s.cohort.relayed ++ [(⟨o, r.tag, r.src, p⟩ : Relayed)] } }
      s.sendLink o clsReq (markRelayed b)

/-! ### The completer (R816-R821) -/

/-- NAK_EPOCH: the first on a port in each second is reported (R836, R837, Table 18-8). -/
def nakEpoch (s : State) (p : Nat) (r : RemoteOp) : State :=
  let e := s.cohort.nakEpoch.get {} p
  let fire := e.last != some s.second
  let e' : SecondState := if fire then { last := some s.second, since := 0 } else { e with since := satInc 255 e.since }
  let s := { s with cohort := { s.cohort with nakEpoch := s.cohort.nakEpoch.set p e' } }
  let s := if fire then
      s.raise 0x0E02 sevNotice wardenUnit [(16, portUnit p), (6, r.src), (2, 0), (8, satInc 255 e.since), (64, r.epoch)]
        .unit (some (92 + p))
    else s
  s.answerReq p r cplNakEpoch []

/-- The first failing check of Table 18-4 before translation. -/
def reqStatus (s : State) (r : RemoteOp) : Option Nat :=
  match s.cohort.inWin.get? r.window with
  | none => some cplNoWindow
  | some w =>
    if w.member != 0xFF && w.member != r.src then some cplNoWindow
    else if !w.grants r.right then some cplRights
    else if r.offset + r.bytes > w.len then some cplNoWindow
    else none

/-- The DVA of a request in its window. -/
def reqDva (s : State) (r : RemoteOp) : Nat := match s.cohort.inWin.get? r.window with | some w => w.base + r.offset | none => 0

/-- Takes a request that passed the window's checks to its translation (R818, R819). -/
def acceptReq (s : State) (p : Nat) (r : RemoteOp) : State :=
  match s.cohort.inWin.get? r.window with
  | none => s
  | some w =>
    match s.space? w.ast with
    | none => s.answerReq p r cplUnmapped []
    | some x =>
      let dva := w.base + r.offset
      let need := (Seg.pages ⟨0, dva, r.bytes⟩).map fun g => (⟨1, g.addr / 4096, r.right, g.tile⟩ : Need)
      let (s, id) := s.startJob { requester := 3, engine := 48, unit := portUnit p, fn := x.fn, ast := w.ast, need := need }
      { s with cohort := { s.cohort with inbound := s.cohort.inbound ++ [{ port := p, req := r, dva := dva, job := id }] } }

/-- The oldest request of a port that waits. -/
def inboundHead (s : State) (p : Nat) : Option InboundReq := s.cohort.inbound.find? fun i => i.port == p

/-- A request ends with its completion. -/
def endInbound (s : State) (i : InboundReq) (status : Nat) (data : Bytes) : State :=
  let s := s.dropJob i.job
  let s := { s with cohort := { s.cohort with inbound := dropFirst i s.cohort.inbound } }
  s.answerReq i.port i.req status data

/-- RIGHTS where the page is reached without the right, else UNMAPPED (Table 18-4). -/
def failedStatus (s : State) (i : InboundReq) : Nat :=
  let short := (s.xlat.jobs.get? i.job).any fun j => j.need.any fun n => s.xlat.shared.any fun e =>
    e.covers j.ast n.page && !e.right n.right && (match e.target with | .polder _ _ => true | _ => false)
  if short then cplRights else cplUnmapped

/-- Where the bytes of a request lie, page by page. -/
def inboundPlaces (s : State) (i : InboundReq) : List (Seg × Place) :=
  (Seg.pages ⟨0, i.dva, i.req.bytes⟩).map fun g => (g, s.place 0 (some i.job) 0 g.addr)

/-- DPA of a polder place. -/
def placeDpa (s : State) (p : Place) : Option Nat :=
  match p with
  | .polder n o => (s.polder? n).bind fun q => q.dpa o
  | _ => none

/-- A place in memory waits for its channel (R403 and others), unless its line is held. -/
def inboundWaits (s : State) (i : InboundReq) : Bool :=
  (s.inboundPlaces i).any fun (g, p) => s.placeWaits p g.len

/-- Reads or writes a translated request at its home slices (R333, R817 order 8, R818). -/
def applyInbound (s : State) (i : InboundReq) (faults : List WordFault) : State :=
  let ps := s.inboundPlaces i
  if ps.any fun (_, p) => (s.placeDpa p).isNone then s.endInbound i cplUnmapped []
  else if s.inboundWaits i then s
  else
    let s := match ps.head?.bind fun (_, p) => s.placeDpa p with
      | some a => s.lineFaults (homeSlice a) (a / 128) faults
      | none => s
    if i.req.op = 2 then
      let s := ps.foldl (fun s (g, p) => s.writePlace p ((i.req.data.drop g.tile).take g.len)) s
      s.endInbound i cplOk []
    else
      let (s, bs, bad) := ps.foldl (fun (acc : State × Bytes × Bool) (g, p) =>
        let (s, r) := acc.1.readPlace p g.len false
        (s, acc.2.1 ++ r.bytes, acc.2.2 || r.bad.isSome)) (s, [], false)
      if bad then s.endInbound i cplPoison [] else s.endInbound i cplOk bs

/-- Goes on with the oldest waiting request: requests of one port apply in arrival order (R821). -/
def serveInbound (s : State) (i : InboundReq) (faults : List WordFault) : State :=
  if s.boot.device = .lost then s.endInbound i cplFailed []
  else
    match s.xlat.jobs.get? i.job with
    | none => s.endInbound i cplUnmapped []
    | some j =>
      if j.remark then s.restartJob i.job
      else
        match j.status with
        | .waiting => s
        | .failed _ _ _ => s.endInbound i (s.failedStatus i) []
        | .ready => if i.req.op = 3 then s else s.applyInbound i faults

/-- The oldest waiting request can go on here: its translation stands, and it does not wait for a reducer. -/
def inboundReady (s : State) (i : InboundReq) : Bool :=
  s.boot.device == .lost || (match s.xlat.jobs.get? i.job with
    | none => true
    | some j => j.remark || (match j.status with | .waiting => false | .failed _ _ _ => true | .ready => i.req.op != 3))

/-- A REQ is judged (Table 18-4, R838). -/
def judgeReq (s : State) (p : Nat) (b : Bytes) (faults : List WordFault) : State :=
  let r := parseReq b
  if r.dst != s.cohort.member then s.relayReq p r b
  else if s.boot.device = .lost || r.op < 1 || r.op > 3 then s.answerReq p r cplFailed []
  else if r.epoch != s.cohort.epoch.toNat then s.nakEpoch p r
  else
    match s.reqStatus r with
    | some st => s.answerReq p r st []
    | none =>
      let s := s.acceptReq p r
      match s.inboundHead p with
      | some i => if i.req == r && s.inboundReady i then s.serveInbound i faults else s
      | none => s

end State

/-- R772, R800-R802, R817-R824, R836-R838: the oldest waiting request of the port goes on, or the next one is judged. -/
def execRemoteRequest (p : Nat) (faults : List WordFault) (s : State) : Host.Outcome State Fault Refusal :=
  let next := fun (s : State) =>
    if (s.cohort.inbound.filter fun i => i.port == p).length ≥ 256 then s
    else
      match s.takeArrived p fun c _ => c == clsReq with
      | (s, some b) => s.judgeReq p b faults
      | (s, none) => s
  .next (if !s.portTalks p then s
    else
      match s.inboundHead p with
      | some i => if s.inboundReady i then s.serveInbound i faults else next s
      | none => next s)

namespace State

/-- A CPL for this device's own request (R820, R822). -/
def completeReq (s : State) (r : RemoteReq) (status : Nat) (data : Bytes) : State :=
  let s := State.sendWaitingReqs { s with cohort := { s.cohort with reqs := dropFirst r s.cohort.reqs } }
  if status ≠ cplOk then s.failRemote r.user
  else
    match r.user with
    | .pump k index tile _ => s.pieceDone k index tile (some data) 0 0
    | .red q id =>
      match (s.sq q).ops.find? fun o => o.id == id with
      | some o => match o.work with
        | .red kind addr ast type n d ordered job none =>
          s.setWork q id (.red kind addr ast type n d ordered job (some true)) none
        | _ => s
      | none => s
    | .unit _ => s

/-- A CPL for another member returns on the port its request came from (R797, R800, R801, R824). -/
def relayCpl (s : State) (p tag dst : Nat) (relayed : Bool) (b : Bytes) : State :=
  if s.boot.device = .lost || !s.mayRelay then s
  else if relayed then s.countRefused p
  else
    match s.cohort.relayed.find? fun r => r.outPort == p && r.tag == tag && r.src == dst with
    | none => s
    | some r =>
      let s := { s with cohort := { s.cohort with relayed := dropFirst r s.cohort.relayed } }
      if s.portUp r.inPort then s.sendLink r.inPort clsCpl (markRelayed b) else s

end State

/-- R797, R800-R802, R820, R822, R824. -/
def execRemoteCompletion (p : Nat) (s : State) : Host.Outcome State Fault Refusal :=
  .next (if !s.portTalks p then s
    else
      match s.takeArrived p fun c _ => c == clsCpl with
      | (s, none) => s
      | (s, some b) =>
        let tag := byteAt b 1
        if byteAt b 3 % 64 != s.cohort.member then s.relayCpl p tag (byteAt b 3 % 64) (bitOf (byteAt b 2) 6) b
        else
          match s.cohort.reqs.find? fun r => r.port == p && r.tag == tag with
          | none => s
          | some r => s.completeReq r (byteAt b 6) (b.drop 24))

/-! ### Reducer operations (R585-R589) -/

/-- R577, R584-R589, R597: the operation of a cluster, of a sequencer, or of an inbound window is applied in its
target's entry and acknowledged. -/
def execReducerOperation (r : RedSource) (s : State) : Host.Outcome State Fault Refusal :=
  .next (match r with
    | .aperture c tag =>
      match (s.port c).requests.findIdx? fun q => q.tag == tag && q.passed && q.answer.isNone with
      | none => s
      | some i =>
        match (s.port c).requests[i]? with
        | none => s
        | some q =>
          match s.apDpa c q with
          | none => s.setReq c i fun q => { q with answer := some (3, []) }
          | some a =>
            if !s.redRuns a then s
            else
              let (s, ok) := s.reduce a q.type (State.apCount q) q.data false 0 (clusterUnit c)
              s.setReq c i fun q => { q with answer := some (if ok then (0, []) else (3, [])) }
    | .seq q id =>
      match (s.sq q).ops.find? fun o => o.id == id with
      | none => s
      | some o =>
        match o.work with
        | .red kind addr ast type n data ordered job none =>
          let place := s.seqPlace q job kind addr
          match place, s.placeDpa place with
          | .window _ _, _ => s
          | _, none => s.setWork q id (.red kind addr ast type n data ordered job (some false)) none
          | _, some a =>
            if s.lineBusy q id place || !s.redRuns a then s
            else
              let (s, ok) := s.reduce a type n data ordered 1 (seqUnit q)
              s.setWork q id (.red kind addr ast type n data ordered job (some ok)) none
        | _ => s
    | .window p tag src =>
      match s.inboundHead p with
      | none => s
      | some i =>
        let ready := match s.xlat.jobs.get? i.job with
          | some j => !j.remark && j.status == .ready
          | none => false
        if i.req.op ≠ 3 || i.req.tag ≠ tag || i.req.src ≠ src || !ready then s
        else
          match (s.inboundPlaces i).head?.bind fun (_, pl) => s.placeDpa pl with
          | none => s.endInbound i cplUnmapped []
          | some a =>
            if !redFits i.req.type i.req.count a then s.endInbound i cplFailed []
            else if !s.redRuns a then s
            else
              let (s, ok) := s.reduce a i.req.type i.req.count i.req.data false 2 i.req.window
              s.endInbound i (if ok then cplOk else cplFailed) [])

/-! ### Time (R828-R834) -/

/-- A TIME message (Table 18-5). -/
def timeMessage (response number t1 t2 t3 : Nat) : Bytes :=
  toLE 1 2 ++ toLE 1 response ++ toLE 2 number ++ toLE 4 0 ++ toLE 8 t1 ++ toLE 8 t2 ++ toLE 8 t3

/-- The source that stands for COHORT_SYNC among the ports. -/
def syncSource : Nat := 48

/-- 500 ppm in units of 0.01 ppm (R48, R832). -/
def steerLimit : Int := 50000

/-- The mean offset of the exchanges whose delay is at most 1.5 times the least (R829); the pairs hold both doubled. -/
def estimateOf (l : List (Int × Int)) : Int :=
  match l with
  | [] => 0
  | e :: t =>
    let least := t.foldl (fun m x => min m x.2) e.2
    let used := (e :: t).filter fun x => decide (2 * x.2 ≤ 3 * least)
    (used.foldl (fun n x => n + x.1) 0) / (2 * (used.length : Int))

namespace State

/-- The device steers towards another member through a source (R831, R832). -/
def steersBy (s : State) (source : Nat) : Bool :=
  s.cohort.leader != 0xFF && s.cohort.leader != s.cohort.member
    && s.cohort.leaderPort == (if source = syncSource then 0xFFFF else portUnit source)

/-- A source has a new estimate: EV_TIME_DISAGREE (R830, Table 18-7), and the rate correction (R832). -/
def newEstimate (s : State) (source member : Nat) (e : Int) : State :=
  let t := s.cohort.times.get {} source
  let out := decide (e.natAbs > s.cohort.tolerance)
  let set := fun (s : State) (t : PortTime) => { s with cohort := { s.cohort with times := s.cohort.times.set source t } }
  let s :=
    if out && !t.reported then
      let s := set s { t with reported := true, within := none }
      s.raise 0x0E01 sevDegraded wardenUnit
        [(16, if source = syncSource then 0 else portUnit source), (8, member), (8, 0), (64, (e % (2 ^ 64 : Int)).toNat)]
        .unit (some (if source = syncSource then islWarden else 92 + source))
    else if out then set s { t with within := none }
    else if t.reported then
      let since := t.within.getD s.now
      if s.now ≥ since + 1000000000 then set s { t with reported := false, within := none } else set s { t with within := some since }
    else s
  if s.steersBy source then
    { s with cohort := { s.cohort with steering := true, estimate := e
                                       correction := max (-steerLimit) (min steerLimit (50 * e)) } }
  else s

end State

/-- R828: the request carries t1 from the LINK island's follower. -/
def execTimeRequestSend (p : Nat) (s : State) : Host.Outcome State Fault Refusal :=
  .next (if !s.portTalks p then s
    else
      let t := s.cohort.times.get {} p
      let t1 := s.follower (92 + p)
      let n := (t.number + 1) % 65536
      let s := { s with cohort := { s.cohort with times := s.cohort.times.set p { t with number := n, sentAt := some t1 } } }
      s.sendLink p clsMgmt (timeMessage 0 n t1 0 0))

/-- R828-R830, R832: a request is answered; a response to the request outstanding ends its exchange. -/
def execTimeMessage (p : Nat) (s : State) : Host.Outcome State Fault Refusal :=
  .next (if !s.portTalks p then s
    else
      match s.takeArrived p fun c b => c == clsMgmt && byteAt b 0 == 2 with
      | (s, none) => s
      | (s, some b) =>
        let now := s.follower (92 + p)
        let t1 := fieldAt b 8 8
        if byteAt b 1 = 0 then s.sendLink p clsMgmt (timeMessage 1 (fieldAt b 2 2) t1 now now)
        else
          let t := s.cohort.times.get {} p
          if t.sentAt != some t1 || t.number != fieldAt b 2 2 then s
          else
            let t2 : Int := fieldAt b 16 8
            let t3 : Int := fieldAt b 24 8
            let x : Int × Int := ((t2 - t1) - (now - t3), (now - t1) - (t3 - t2))
            let l := (x :: t.exchanges).take 16
            let s := { s with cohort := { s.cohort with times := s.cohort.times.set p { t with sentAt := none, exchanges := l } } }
            s.newEstimate p (s.lport p).member (estimateOf l))

/-- R833, R1005, R1007: the leader's pulse at a multiple of 1,000,000 ns. -/
def execCohortSyncPulse (s : State) : Host.Outcome State Fault Refusal :=
  .next (if s.cohort.leader != 0xFF && s.cohort.leader == s.cohort.member && s.now % 1000000 == 0 then s.emit .syncPulse
    else s)

/-- R830, R832, R833, R1007: the phase of an edge modulo 1 ms, negated and wrapped into ±500,000 ns. -/
def execCohortSyncEdge (s : State) : Host.Outcome State Fault Refusal :=
  .next (if !s.steersBy syncSource then s
    else
      let phase : Int := s.now % 1000000
      let e := if phase > 500000 then 1000000 - phase else -phase
      State.newEstimate { s with cohort := { s.cohort with lastEdge := some s.now } } syncSource s.cohort.leader e)

/-- R834: no edge on COHORT_SYNC for 10 ms of TBASE. -/
def execCohortSyncTimeout (s : State) : Host.Outcome State Fault Refusal :=
  .next (if s.steersBy syncSource && s.cohort.lastEdge.all fun t => decide (t + 10000000 ≤ s.now) then s.stopSteering else s)

end Sys2Proof.Machine
end

