-- ==== Sys2Proof/Machine/Mailbox.lean ====
section
/-! DEFINITION. Doorbells, the admin pair, the halted warden and the sideband's messages (chapters 03, 05, 06). -/

namespace Sys2Proof.Machine

namespace State

/-- The SMBus target answers from step 4 on (R867). -/
def sidebandUp (s : State) : Bool := s.boot.smbusUp && !s.islandHalted islHost

/-- KYM.STATUS of a function (Table 3-5); a warden whose island stopped reads HALTED (R55). -/
def kymStatus (s : State) (f : Nat) : Nat :=
  let warden := if s.islandStopped islWarden then 2 else wardenCode s.kym.warden
  let failed := (List.range 4).foldl (fun m q =>
    m + 2 ^ q * natOf (match s.pair? f q with | some p => p.failed | none => false)) 0
  natOf (decide (s.boot.step ≥ 16)) + 2 * deviceCode s.boot.device + 16 * warden + 64 * failed

/-- An intake position has a command waiting (R76). -/
def ring (s : State) (pos : Nat) : State := { s with kym := { s.kym with rung := s.kym.rung.set pos () } }

def unring (s : State) (pos : Nat) : State := { s with kym := { s.kym with rung := s.kym.rung.erase pos } }

end State

/-! ### Doorbells -/

/-- R62, R246, R1035: the tail moves whatever the warden's state; a pair that is absent remembers nothing. -/
def execKymCqDbWrite (f q : Nat) (v : BitVec 32) (s : State) : Host.Outcome State Fault Refusal :=
  .next (match s.barUp f && decide (q < 4), s.pair? f q with
    | true, some p => (s.setPair f q { p with tail := v.toNat % 4096 % p.cqSize }).ring (5 * f + q)
    | _, _ => s)

/-- R73, R1035. -/
def execKymRqDbWrite (f q : Nat) (v : BitVec 32) (s : State) : Host.Outcome State Fault Refusal :=
  .next (match s.barUp f && decide (q < 4), s.pair? f q with
    | true, some p =>
      let h := v.toNat % 4096 % p.rqSize
      let left := (p.ridx + p.rqSize - h) % p.rqSize
      if left > p.unread then s else s.setPair f q { p with rhead := h, unread := left }
    | _, _ => s)

/-- R116: a write while the mailbox's command is taken and not final is ignored, whatever it writes. -/
def execKymUrgDbWrite (f : Nat) (v : BitVec 32) (s : State) : Host.Outcome State Fault Refusal :=
  let k := s.kymFn f
  .next (if !s.barUp f then s
    else if k.urgBusy then s.setKymFn f { k with urgOverrun := true }
    else if v.toNat % 2 = 0 then s
    else s.ring (5 * f + 4))

/-! ### The admin pair -/

/-- R64, R69, R1033, R1034, Table 3-5. -/
def execAqEnable (f : Nat) (s : State) : Host.Outcome State Fault Refusal :=
  let k := s.kymFn f
  let ok := fun (n : Nat) => decide (4 ≤ n) && decide (n ≤ 12)
  .next (if !s.barUp f || k.aqEnable || !ok k.cqLog || !ok k.rqLog then s
    else (s.setKymFn f { k with aqEnable := true }).resetPair f 0
      { cbase := k.aqCbase, rbase := k.aqRbase, cqLog := k.cqLog, rqLog := k.rqLog, vector := k.vector })

/-- R1033: commands taken run on, and their final replies wait. -/
def execAqDisable (f : Nat) (s : State) : Host.Outcome State Fault Refusal :=
  .next (if !s.barUp f || !(s.kymFn f).aqEnable then s
    else
      let s := s.setKymFn f { s.kymFn f with aqEnable := false }
      State.unring { s with kym := { s.kym with pairs := s.kym.pairs.erase (4 * f) } } (5 * f))

/-! ### Halt and restart -/

/-- R58-R61: both cores halt; FAULT_N and warden_state follow from the state itself. -/
def execLockstepMismatch (s : State) : Host.Outcome State Fault Refusal :=
  .next (if s.boot.device == .cold || !s.clk.wardenLocked || s.islandHalted islWarden || s.kym.warden == .halted then s
    else { s with kym := { s.kym with warden := .halted, mismatches := satInc 65535 s.kym.mismatches, mismatchAt := s.now
                                      mismatchPending := true } })

/-- A restart is acted on only while the warden is HALTED, on a running clock (Table 3-5, R55). -/
def State.beginRestart (s : State) : State :=
  if s.kym.warden == .halted && !s.islandHalted islWarden then { s with kym := { s.kym with warden := .restarting } } else s

/-- R63, R135, Table 3-5. -/
def execWardenCtrlRestart (f : Nat) (v : BitVec 32) (s : State) : Host.Outcome State Fault Refusal :=
  .next (if s.barUp f && f == 0 && v.toNat % 2 == 1 then s.beginRestart else s)

/-- R62, R867: the host island itself answers, so a halted warden does not matter. -/
def execWardenControlMessage (restart : Bool) (s : State) : Host.Outcome State Fault Refusal :=
  .next (if !s.sidebandUp then s else if restart then s.beginRestart else s.emit (.read (s.kymStatus 0) false))

/-- R79, R1036: the message waits at position 640 with its inline data. -/
def execSidebandKymalRequest (entry inl : Bytes) (answers : Answers) (s : State) : Host.Outcome State Fault Refusal :=
  .next (if !s.sidebandUp || entry.length ≠ 128 then s
    else State.ring { s with kym := { s.kym with sideband := s.kym.sideband ++ [KCmd.parse .sideband entry inl answers] } } 640)

end Sys2Proof.Machine
end

