-- ==== Sys2Proof/Machine/EventRows.lean ====
section
/-! DEFINITION. Events collected, routed and consumed, FAULT_N, and MSI-X masks (chapters 05, 19). -/

namespace Sys2Proof.Machine

/-- The severities a code of Table 5-7 is raised with; none for a code the table does not list (R228). -/
def codeSeverities (code : Nat) : List Nat :=
  match code with
  | 0x0401 => [sevCorrected, sevFailed]
  | 0x0107 | 0x0202 | 0x0506 | 0x0701 | 0x0702 | 0x0703 | 0x0902 | 0x0F01 | 0x1101 | 0x1102 => [sevInfo]
  | 0x0104 | 0x0105 | 0x0106 | 0x0201 | 0x0301 | 0x0504 | 0x0B02 | 0x0D02 | 0x0E02 | 0x1002 => [sevNotice]
  | 0x0501 | 0x0502 | 0x0601 => [sevCorrected]
  | 0x0102 | 0x0505 | 0x0508 | 0x0801 | 0x0901 | 0x0B01 | 0x0C02 | 0x0D03 | 0x0D04 | 0x0E01 => [sevDegraded]
  | 0x0101 | 0x0103 | 0x0302 | 0x0503 | 0x0602 | 0x0802 | 0x0A01 | 0x0A02 | 0x0C01 | 0x0C03 | 0x0D01 | 0x1001 => [sevFailed]
  | 0x0507 => [sevFatal]
  | _ => []

/-- The units a code is raised for (Tables 5-12, 5-13): the one it always names, or the classes it admits. -/
def codeUnit (code unit : Nat) : Bool :=
  let c := unitClass unit
  unitValid unit && (match code with
    | 0x0101 | 0x0102 | 0x0106 | 0x0901 | 0x0902 | 0x0E01 | 0x0E02 => unit == wardenUnit
    | 0x0103 | 0x0104 | 0x0107 | 0x0F01 => c == 0x0E
    | 0x0201 | 0x0202 => [0x02, 0x03, 0x04, 0x05, 0x07, 0x11].contains c
    | 0x0301 | 0x0B01 | 0x0B02 => c == 0x0B
    | 0x0302 => unit == powerUnit
    | 0x0501 | 0x0502 | 0x0503 | 0x0506 => c == 0x03 || c == 0x04
    | 0x0504 | 0x0505 => c == 0x03
    | 0x0507 => c == 0x02
    | 0x0508 => c == 0x04
    | 0x0601 | 0x0602 => c == 0x01
    | 0x0701 | 0x0703 => [0x08, 0x09, 0x0A, 0x0B, 0x05].contains c
    | 0x0702 => unit == xlatUnit
    | 0x0801 | 0x0802 => c == 0x08
    | 0x0A01 => c == 0x0C
    | 0x0A02 => c == 0x0A
    | 0x0C01 | 0x0C02 => c == 0x06
    | 0x0C03 => c == 0x07
    | 0x0D01 | 0x0D02 | 0x0D03 | 0x0D04 => c == 0x05
    | 0x1001 | 0x1002 => unit == sealedUnit
    | _ => true)
  || unit == 0 && code == 0x0107

/-- The runs of bits that a code's detail names, lowest bit and width; its other bits are zero (Tables 5-12, 7-6, 8-4, 9-6,
10-4, 10-5, 11-6, 12-10, 12-11, 13-7, 13-8, 14-6, 14-8, 16-9, 16-10, 17-4, 18-7, 18-8, 21-4, 22-3, 22-5, 23-4, R941). -/
def codeRuns (code : Nat) : List (Nat × Nat) :=
  match code with
  | 0x0101 | 0x0201 | 0x0202 | 0x0301 => [(0, 80)]
  | 0x0102 => [(0, 24), (32, 40)]
  | 0x0103 => [(0, 4), (8, 64)]
  | 0x0104 => [(0, 19), (32, 48)]
  | 0x0105 => [(0, 41), (48, 16)]
  | 0x0106 => [(0, 81)]
  | 0x0107 => [(0, 2), (8, 88)]
  | 0x0302 | 0x1101 => [(0, 24)]
  | 0x0401 => [(0, 10), (16, 32)]
  | 0x0501 | 0x0502 => [(0, 70), (80, 16)]
  | 0x0503 => [(0, 70), (80, 1)]
  | 0x0504 | 0x0507 => [(0, 33)]
  | 0x0505 => [(0, 7)]
  | 0x0508 => [(0, 12), (16, 2)]
  | 0x0601 | 0x0602 => [(0, 31), (32, 64)]
  | 0x0701 | 0x0703 => [(0, 91)]
  | 0x0702 => [(0, 64)]
  | 0x0801 | 0x0802 => [(0, 78), (80, 7)]
  | 0x0901 => [(0, 14), (16, 39)]
  | 0x0902 => [(0, 14), (16, 13)]
  | 0x0A01 => [(0, 55), (64, 32)]
  | 0x0A02 => [(0, 6), (8, 46), (64, 32)]
  | 0x0B01 => [(0, 29), (32, 64)]
  | 0x0B02 => [(0, 3), (16, 13), (32, 13)]
  | 0x0C01 => [(0, 20), (32, 48), (80, 14)]
  | 0x0C03 => [(0, 38)]
  | 0x0D01 => [(0, 72)]
  | 0x0D02 => [(0, 48)]
  | 0x0D03 => [(0, 80)]
  | 0x0D04 => [(0, 3), (8, 24)]
  | 0x0E01 => [(0, 24), (32, 64)]
  | 0x0E02 => [(0, 22), (24, 72)]
  | 0x0F01 => [(0, 12)]
  | 0x1001 => [(0, 3), (8, 24)]
  | 0x1002 => [(0, 4)]
  | 0x1102 => [(0, 4), (8, 88)]
  | _ => [(0, 96)]

/-- Every bit that the code's table does not name is zero. -/
def detailOk (code detail : Nat) : Bool :=
  decide (detail = (codeRuns code).foldl (fun n r => n + bitsOf detail r.1 r.2 * 2 ^ r.1) 0)

/-- Where the warden routes an event of a code: an order's and a broken lease's by the resource (R204, R1031), a digest's by
the caddy (R204), a caddy's state and a pump's halt to the function they name (R483, R550), a translation's to the function of its address space
(R440), an orphaned command's and a reset's to the PF (R127), a closed channel's unit state to its function (R951), a driver tag to the log alone (R1038), all others by their
unit. -/
def State.codeRoute (s : State) (code detail : Nat) : Route :=
  match code with
  | 0x0105 | 0x0201 | 0x0202 => .ref (detail % 2 ^ 32)
  | 0x0901 => .ref (caddyRef (detail % 2 ^ 14))
  | 0x0902 => .fn (bitsOf detail 22 7)
  | 0x0801 | 0x0802 => .fn (bitsOf detail 80 7)
  | 0x0701 | 0x0703 => .fn (((s.xlat.spaces.get? (bitsOf detail 68 12)).map (·.fn)).getD 0)
  | 0x0702 => .fn (((s.xlat.spaces.get? (bitsOf detail 0 12)).map (·.fn)).getD 0)
  | 0x0104 | 0x0F01 => .fn 0
  | 0x0107 => .log
  | 0x1101 => if bitsOf detail 8 16 = 0xFFFF then .unit else .fn (bitsOf detail 8 16)
  | _ => .unit

/-- The island where an event of a code arises (R49): the warden's own events, the collector's trip, and those of a port name
other units. -/
def codeIsland (code unit detail : Nat) : Nat :=
  match code with
  | 0x0103 | 0x0104 | 0x0105 | 0x0107 | 0x0302 | 0x1002 | 0x1102 => islWarden
  | 0x0C03 | 0x0E01 | 0x0E02 => stampIsland (detail % 65536)
  | _ => stampIsland unit

/-- R49, R198, R200-R202, R218, R228, R230, R247, R927, R1031: a unit posts an event to the collector. What no table gives
a code to carry, nothing posts. -/
def execEventCollect (code severity unit detail : Nat) (s : State) : Host.Outcome State Fault Refusal :=
  .next (if (codeSeverities code).contains severity && codeUnit code unit && detailOk code detail then
      (s.raise code severity unit [(96, detail)] (s.codeRoute code detail) (codeIsland code unit detail)).reportSeal
    else s)

/-- The warden writes events: its log is open, it is not halted or restarting, and its clock runs. -/
def State.routes (s : State) : Bool := !s.routeBlocked && !s.islandHalted islWarden

/-- R16, R17, R203-R208, R211, R212, R217, R227, R1031: the oldest event the collector holds is written. -/
def execEventRoute (s : State) : Host.Outcome State Fault Refusal := .next (if s.routes then s.routeOne else s)

/-- R206, R207, R213, R214. -/
def execSpillwayWrite (f : Nat) (s : State) : Host.Outcome State Fault Refusal :=
  let q := s.queue f
  .next (if s.routes && q.first.isSome && !q.isFull then (s.writeSpillway f).raiseQueueVector f else s)

/-- R198, R199: what else holds FAULT_N is `State.faultN`'s. -/
def execFaultNExpiry (s : State) : Host.Outcome State Fault Refusal :=
  .next (match s.ev.faultUntil with
    | some t => if s.now < t then s else { s with ev := { s.ev with faultUntil := none } }
    | none => s)

/-- R208, R210, R1025: a head in range, and not past a record written, frees the entries before it; the vector may be
raised again once the head has moved. -/
def execEvqHeadWrite (f : Nat) (v : BitVec 32) (s : State) : Host.Outcome State Fault Refusal :=
  let q := s.queue f
  let h := v.toNat % 65536
  let left := (q.idx + q.size - h) % q.size
  .next (if !s.barUp f || !q.enabled || decide (h ≥ q.size) || decide (left > q.held) then s
    else s.setQueue f { q with head := h, held := left, raised := q.raised && left == q.held })

/-- Sends the messages of pending vectors that nothing masks or forbids any more (R853, R854). -/
def State.sendPending (s : State) (f : Nat) : State :=
  let h := s.hostFn f
  if !h.msixEnable || h.functionMask then s
  else
    let go := h.pba.keys.filter fun v => !(h.vectors.get {} v).masked
    go.foldl (fun s v => s.emit (.msix f v))
      (s.setHostFn f { h with pba := h.pba.keep fun v _ => (h.vectors.get {} v).masked })

/-- R853, R854. -/
def execMsixVectorUnmask (f : Nat) (w : MsixWrite) (s : State) : Host.Outcome State Fault Refusal :=
  let h := s.hostFn f
  .next (match w with
    | .unmask v =>
      if s.barUp f && decide (v < vectorLimit f) then
        (s.setHostFn f { h with vectors := h.vectors.set v { h.vectors.get {} v with masked := false } }).sendPending f
      else s
    | .control enable mask =>
      if s.barUp f then (s.setHostFn f { h with msixEnable := enable, functionMask := mask }).sendPending f else s)

end Sys2Proof.Machine
end

