-- ==== Sys2Proof/Machine/Registers.lean ====
section
/-! DEFINITION. Configuration requests, BAR0 registers, the time registers and the sideband register space (chapters 00,
02, 05, 19). -/

namespace Sys2Proof.Machine

/-! ### Configuration space -/

/-- Table 19-1 lists the option as supported (R842). -/
def pcieSupports (x : PcieOption) : Bool :=
  match x with
  | .flitMode | .rate64 | .tags10 | .tags14 | .extendedTag | .aer | .flr | .serialNumber | .laneMargining | .dataLinkFeature
  | .rrs | .d0 | .d3hot | .noSoftReset | .ari | .pageAlignedRequest | .globalInvalidate | .selectiveIde | .pcrc
  | .doeDiscovery | .cmaSpdm | .securedCmaSpdm => true
  | .aspmL0s | .aspmL1 | .ltr | .resizableBar | .enhancedAllocation | .atomicOps | .tdisp | .cxl
  | .immediateReadiness | .readinessTime | .d1 | .d2 | .pme | .vfResizableBar | .vfMigration | .atsMemoryAttributes
  | .executePermission | .privilegedMode | .linkIde | .ideAggregation | .otherDoeProtocol => false

/-- A field's value (R1-R3, R5, R245, R842, R855, R860, R862, Tables 19-1 and 19-3). -/
def State.configField (s : State) (f : Nat) (x : ConfigField) : Nat :=
  match x with
  | .vendor => 0x1F3D
  | .device => if f = 0 then 0x4D32 else 0x4D33
  | .revision => 0xB0
  | .totalVfs => 127
  | .firstVfOffset | .vfStride => 1
  | .vfDevice => 0x4D33
  | .numVfs => s.host.vfs
  | .vfEnable => natOf s.host.vfEnable
  | .atsQueueDepth | .atsTranslationUnit => 0
  | .atsEnable => natOf (s.hostFn f).atsEnable
  | .priCapacity => 1024
  | .prgPasidRequired => 1
  | .priEnable => natOf (s.hostFn f).priEnable
  | .pasidWidth => 20
  | .immediateReadiness => 0
  | .linkSpeed => s.host.pcie.gen
  | .linkWidth => s.host.pcie.lanes
  | .option o => natOf (pcieSupports o)
  | .ideStreams => 8
  | .doeMaxObject => 4096

/-- The link that trains where the platform offers at most a generation and a number of lanes: the best of 64, 32, 16, 8, 5 and
2.5 GT/s, and of x16, x8, x4 and x1, that it does not exceed (R841). -/
def trainPcie (gen lanes : Nat) : PcieLink :=
  { gen := max 1 (min gen 6), lanes := ([16, 8, 4].find? fun w => decide (w ≤ lanes)).getD 1 }

/-- A configuration request served once configuration space is populated (DESIGN CHOICE, log entries 31, 32). -/
def State.configServe (s : State) (f : Nat) (c : ConfigAccess) : State :=
  match c with
  | .read offset =>
    if offset = 0 then s.emit (.config false (s.configField f .vendor + 0x10000 * s.configField f .device))
    else if offset = 8 then (s.emit (.config false (s.freeNat % 2 ^ 24 * 256 + s.configField f .revision))).tickFree
    else (s.emit (.config false (s.freeNat % 2 ^ 32))).tickFree
  | .field x => s.emit (.config false (s.configField f x))
  | .retrain gen lanes => { s with host := { s.host with pcie := trainPcie gen lanes } }
  | .atsEnable => s.setHostFn f { s.hostFn f with atsEnable := true }
  | .priEnable n => s.setHostFn f { s.hostFn f with priEnable := true, priAllocation := min n 1024 }
  | .ideStream i on =>
    if decide (i ≥ 8) then s
    else { s with host := { s.host with ide := if on then s.host.ide.set i { fn := f } else s.host.ide.erase i } }

/-- R1-R3, R5, R244, R245, R841, R855, R860: a link that trains again keeps functions, BARs and state, and raises no event. -/
def execConfigRequest (f : Nat) (c : ConfigAccess) (s : State) : Host.Outcome State Fault Refusal :=
  .next (if s.islandHalted islHost then s
    else match s.boot.config with
      | .silent => s
      | .rrs => s.emit (.config true 0)
      | .pfOnly => if f = 0 then s.configServe f c else s
      | .full => if s.functionExists f then s.configServe f c else s)

/-! ### BAR0 -/

/-- BOOT.PROGRESS (Table 6-7). -/
def State.bootProgress (s : State) : Nat :=
  let b := s.boot
  packBits [(8, b.step), (8, b.failStep), (2, b.lastReset), (1, b.bank), (1, natOf b.fallback), (1, natOf b.lostAtBoot)]

/-- EVQ.STATUS (Table 5-9). -/
def State.evqStatus (s : State) (f : Nat) : Nat :=
  let q := s.queue f
  natOf q.enabled + 2 * natOf (q.enabled && decide (q.held ≥ q.size)) + 4 * natOf q.first.isSome

/-- BAR2.MAPn as it reads (Table 19-4). -/
def Bar2Map.word (m : Bar2Map) : Nat :=
  packBits [(8, m.polder), (11, m.granule), (41, 0), (2, m.status), (1, natOf m.w), (1, natOf m.enable)]

/-- BAR2 slots of a function (R843). -/
def slotLimit (f : Nat) : Nat := if f = 0 then 256 else 1

/-- One 32-bit word of an MSI-X table entry. -/
def MsixVector.word (v : MsixVector) (i : Nat) : Nat :=
  match i with
  | 0 => v.addr % 2 ^ 32
  | 1 => v.addr / 2 ^ 32
  | 2 => v.data
  | _ => natOf v.masked

/-- A 32-bit word of BAR0 as a read returns it, the time registers apart (Tables 3-5, 5-9, 6-7, 19-2, 19-4; R527).
Write-only and unlisted offsets read zero. -/
def State.bar0Word (s : State) (f o : Nat) : Nat :=
  let k := s.kymFn f
  let h := s.hostFn f
  if o = 0x0000 then kymalVersion
  else if o = 0x0004 then s.kymStatus f
  else if o = 0x0008 then natOf k.aqEnable
  else if o = 0x0010 then k.aqCbase % 2 ^ 32
  else if o = 0x0014 then k.aqCbase / 2 ^ 32
  else if o = 0x0018 then k.aqRbase % 2 ^ 32
  else if o = 0x001C then k.aqRbase / 2 ^ 32
  else if o = 0x0020 then packBits [(4, k.cqLog), (4, k.rqLog), (11, k.vector)]
  else if 0x0080 ≤ o && o < 0x0100 then fieldAt k.urgCmd (o - 0x80) 4
  else if 0x0100 ≤ o && o < 0x0140 then fieldAt k.urgRply (o - 0x100) 4
  else if o = 0x0144 then natOf k.urgBusy + 2 * natOf k.urgDone + 4 * natOf k.urgOverrun
  else if o = 0x0150 then s.bootProgress
  else if o = 0x0204 then s.evqStatus f
  else if o = 0x0308 then natOf (s.ev.timeTorn.has f)
  else if o = 0x0310 then natOf h.unmapped
  else if 0x0400 ≤ o && o < 0x0400 + 8 * slotLimit f then
    let w := (h.bar2.get {} ((o - 0x400) / 8)).word
    if o % 8 = 0 then w % 2 ^ 32 else w / 2 ^ 32
  else if 0x1800 ≤ o && o < 0x2000 then
    let key := (o - 0x1800) / 4
    if s.isHostChan key && s.chanFn key == f then (s.pchan key).head else 0
  else if 0x4000 ≤ o && o < 0x4000 + 16 * vectorLimit f then (h.vectors.get {} ((o - 0x4000) / 16)).word (o % 16 / 4)
  else if 0xC000 ≤ o && o < 0xC100 then
    (List.range 32).foldl (fun m i => m + 2 ^ i * natOf (h.pba.has ((o - 0xC000) * 8 + i))) 0
  else 0

/-- The widths R1039 serves. -/
def bar0Reads (o n : Nat) : Bool :=
  decide (o % n = 0) && (n == 4 || n == 8 || ((n == 16 || n == 32 || n == 64) && decide (0x100 ≤ o) && decide (o + n ≤ 0x140)))

def bar0Writes (o n : Nat) : Bool :=
  decide (o % n = 0) && (n == 4 || n == 8
    || ((n == 16 || n == 32 || n == 64 || n == 128) && decide (0x80 ≤ o) && decide (o + n ≤ 0x100)))

/-- What a BAR0 read of `n` bytes returns, the time registers apart; zero for a width R1039 does not serve. -/
def State.bar0Read (s : State) (f o n : Nat) : Bytes :=
  if bar0Reads o n then (List.range (n / 4)).flatMap fun i => toLE 4 (s.bar0Word f (o + 4 * i)) else List.replicate n 0

/-- Replaces one 32-bit half of a 64-bit value. -/
def setHalf (v : Nat) (high : Bool) (w : Nat) : Nat := if high then v % 2 ^ 32 + w * 2 ^ 32 else v / 2 ^ 32 * 2 ^ 32 + w

/-- A write of one word of a register without a row of its own (R69, Tables 3-5, 19-2, 19-4); an MSI-X Mask bit cleared is
MSIX_VECTOR_UNMASK's. -/
def State.bar0Write (s : State) (f o w : Nat) : State :=
  let k := s.kymFn f
  let h := s.hostFn f
  let base := fun (v : Nat) (high : Bool) => alignDown (setHalf v high w) 4096
  if 0x0010 ≤ o && o < 0x0024 then
    if k.aqEnable then s
    else if o = 0x0010 || o = 0x0014 then s.setKymFn f { k with aqCbase := base k.aqCbase (o == 0x14) }
    else if o = 0x0018 || o = 0x001C then s.setKymFn f { k with aqRbase := base k.aqRbase (o == 0x1C) }
    else s.setKymFn f { k with cqLog := w % 16, rqLog := w / 16 % 16, vector := w / 256 % 2048 }
  else if 0x0080 ≤ o && o < 0x0100 then s.setKymFn f { k with urgCmd := overlay k.urgCmd (o - 0x80) (toLE 4 w) }
  else if o = 0x0144 then
    s.setKymFn f { k with urgDone := k.urgDone && !bitOf w 1, urgOverrun := k.urgOverrun && !bitOf w 2 }
  else if o = 0x0308 then
    if bitOf w 0 then { s with ev := { s.ev with timeTorn := s.ev.timeTorn.erase f } } else s
  else if o = 0x0310 then s.setHostFn f { h with unmapped := h.unmapped && !bitOf w 0 }
  else if 0x4000 ≤ o && o < 0x4000 + 16 * vectorLimit f then
    let i := (o - 0x4000) / 16
    let v := h.vectors.get {} i
    match o % 16 / 4 with
    | 0 => s.setHostFn f { h with vectors := h.vectors.set i { v with addr := setHalf v.addr false w } }
    | 1 => s.setHostFn f { h with vectors := h.vectors.set i { v with addr := setHalf v.addr true w } }
    | 2 => s.setHostFn f { h with vectors := h.vectors.set i { v with data := w } }
    | _ => if bitOf w 0 then s.setHostFn f { h with vectors := h.vectors.set i { v with masked := true } } else s
  else s

/-- R9, R69, R135, R872, R1039: a served width, word by word; any other write is ignored. -/
def execRegisterWrite (f offset : Nat) (data : Bytes) (s : State) : Host.Outcome State Fault Refusal :=
  .next (if !s.barUp f || !bar0Writes offset data.length then s
    else (List.range (data.length / 4)).foldl (fun s i => s.bar0Write f (offset + 4 * i) (fieldAt data (4 * i) 4)) s)

/-! ### The two-halves rule (R220-R223) -/

/-- A low-half read: the value, the snapshot it leaves, and whether TORN is set. -/
def readLow (slot : Option Snapshot) (reg : Nat) (v : BitVec 64) : Nat × Option Snapshot × Bool :=
  (v.toNat % 2 ^ 32, some { reg := reg, high := BitVec.ofNat 32 (v.toNat / 2 ^ 32) }, slot.isSome)

/-- A high-half read. -/
def readHigh (slot : Option Snapshot) (reg : Nat) (v : BitVec 64) : Nat × Option Snapshot × Bool :=
  match slot with
  | some x => if x.reg = reg then (x.high.toNat, none, false) else (v.toNat / 2 ^ 32, slot, true)
  | none => (v.toNat / 2 ^ 32, none, true)

namespace State

/-- TBASE as the host island's follower has it. -/
def hostTime (s : State) : BitVec 64 := BitVec.ofNat 64 (s.follower islHost)

def setBar0Slot (s : State) (f : Nat) (x : Option Snapshot) (torn : Bool) : State :=
  { s with ev := { s.ev with
      bar0Slots := match x with | some y => s.ev.bar0Slots.set f y | none => s.ev.bar0Slots.erase f
      timeTorn := if torn then s.ev.timeTorn.set f () else s.ev.timeTorn } }

end State

/-- R48, R220, R223. -/
def execTimeLoRead (f : Nat) (s : State) : Host.Outcome State Fault Refusal :=
  let r := readLow (s.ev.bar0Slots.get? f) 0x300 s.hostTime
  .next (if s.barUp f then (s.setBar0Slot f r.2.1 r.2.2).emit (.read r.1 r.2.2) else s)

/-- R221, R222. -/
def execTimeHiRead (f : Nat) (s : State) : Host.Outcome State Fault Refusal :=
  let r := readHigh (s.ev.bar0Slots.get? f) 0x300 s.hostTime
  .next (if s.barUp f then (s.setBar0Slot f r.2.1 r.2.2).emit (.read r.1 r.2.2) else s)

/-- R50. -/
def execTimeRead8b (f : Nat) (s : State) : Host.Outcome State Fault Refusal :=
  .next (if s.barUp f then s.emit (.read s.hostTime.toNat false) else s)

/-! ### The sideband register space (Table 19-6) -/

namespace State

/-- SBR.THERM: base-die Tj of the latest control loop and the hottest stack, 0.1 °C, 16 bits each. -/
def sbrTherm (s : State) : Nat :=
  ((s.baseTj.getD 0) % 65536).toNat + 65536 * (s.hottestStack % 65536)

def sbrFault (s : State) : Nat :=
  natOf s.faultN + 2 * natOf (s.boot.device == .lost) + 4 * natOf (s.kym.warden == .halted) + 8 * natOf s.singletonStopped

/-- Registers other than SBR.TBASE; unlisted offsets read zero. -/
def sbrWord (s : State) (o : Nat) : Nat :=
  if o = 0x0000 then 0x4D321F3D
  else if o = 0x0004 then s.kymStatus 0
  else if o = 0x0008 then s.bootProgress
  else if o = 0x000C then natOf s.ev.sbrTorn
  else if o = 0x0018 then s.sbrTherm
  else if o = 0x001C then s.sbrFault
  else 0

/-- A read of the space through a path's snapshot slot: value, slot, TORN. -/
def sbrRead (s : State) (slot : Option Snapshot) (o : Nat) : Nat × Option Snapshot × Bool :=
  if o = 0x0010 then readLow slot 0x10 s.hostTime
  else if o = 0x0014 then readHigh slot 0x10 s.hostTime
  else (s.sbrWord o, slot, false)

end State

/-- R866, R867, R1008: the offset is kept; SBR.ACCESS_STS.torn is the one bit a write changes. -/
def execSbrBlockWrite (offset : Nat) (data : Option (BitVec 32)) (s : State) : Host.Outcome State Fault Refusal :=
  .next (if !s.sidebandUp then s
    else
      let s := { s with host := { s.host with sbrOffset := offset % 65536 } }
      match data with
      | some w => if offset % 65536 = 0x000C && bitOf w.toNat 0 then { s with ev := { s.ev with sbrTorn := false } } else s
      | none => s)

/-- R220-R223, R866, R867. -/
def execSbrBlockRead (s : State) : Host.Outcome State Fault Refusal :=
  let r := s.sbrRead s.ev.smbusSlot s.host.sbrOffset
  .next (if !s.sidebandUp then s
    else State.emit { s with ev := { s.ev with smbusSlot := r.2.1, sbrTorn := s.ev.sbrTorn || r.2.2 } } (.read r.1 false))

/-- R864. -/
def execSmbusArp (addr : Nat) (s : State) : Host.Outcome State Fault Refusal :=
  .next (if s.sidebandUp then { s with host := { s.host with smbusAddr := addr % 128 } } else s)

end Sys2Proof.Machine
end

