-- ==== Sys2Proof/Machine/Functions.lean ====
section
/-! DEFINITION. BAR2, function resets and virtual functions, IDE streams and the DOE mailbox (chapters 03, 06, 19, 21). -/

namespace Sys2Proof.Machine

/-! ### BAR2 -/

/-- What a write of a whole map register leaves: refused where the polder is absent, not the function's, or without the
granule (R845). -/
def State.mapped (s : State) (f : Nat) (v : Nat) : Bar2Map :=
  let p := bitsOf v 0 8
  let g := bitsOf v 8 11
  let ok := match s.polder? p with
    | some q => s.assignedFn (polderUnit p) == f && decide (g < q.size)
    | none => false
  let enable := bitOf v 63
  { polder := p, granule := g, w := bitOf v 62, enable := enable && ok, status := if enable && !ok then 1 else 0 }

/-- R845, R846, Table 19-4: a low half is held until the high half is written; a whole write acts at once. -/
def execBar2MapWrite (f n : Nat) (w : MapWrite) (s : State) : Host.Outcome State Fault Refusal :=
  let h := s.hostFn f
  let m := h.bar2.get {} n
  .next (if !s.barUp f || decide (n ≥ slotLimit f) then s
    else match w with
      | .low v => s.setHostFn f { h with bar2 := h.bar2.set n { m with lowHeld := some v.toNat } }
      | .high v =>
        let low := m.lowHeld.getD (m.word % 2 ^ 32)
        s.setHostFn f { h with bar2 := h.bar2.set n (s.mapped f (low + v.toNat * 2 ^ 32)) }
      | .full v => s.setHostFn f { h with bar2 := h.bar2.set n (s.mapped f v.toNat) })

namespace State

/-- The access touches a failed stack (R276). -/
def touchesLost (s : State) (dpas : List Nat) : Bool :=
  dpas.any fun a => match chanOf a with
    | some n => decide (n < 128) && s.stackFailed (n / 16)
    | none => false

/-- The words found in error as the lines are looked up. -/
def bar2Faults (s : State) (dpas : List Nat) (faults : List WordFault) : State :=
  dpas.zipIdx.foldl (fun s x =>
    s.lineFaults (homeSlice x.1) (x.1 / 128) (faults.filter fun w => w.word / 16 == x.2)) s

/-- A request of an unmapped slot, or a write without W (R848). -/
def bar2Refuse (s : State) (f len : Nat) (write : Bool) : State :=
  let s := s.setHostFn f { s.hostFn f with unmapped := true }
  if write then s else s.emit (.data (List.replicate len 0xFF) false)

end State

/-- R276, R288, R289, R332, R597, R814, R844, R846, R848-R851: one request lies within one page, and so within one slot. While
memory makes one of its lines wait, it waits at the channel of that line. -/
def execBar2Access (f : Nat) (r : Bar2Request) (s : State) : Host.Outcome State Fault Refusal :=
  let len := State.bar2Len r
  let n := r.offset / State.slotBytes
  let m := (s.hostFn f).bar2.get {} n
  .next (if !s.barUp f || decide (n ≥ slotLimit f) || decide (r.offset % 4096 + len > 4096) || len == 0 then s
    else if (s.polder? m.polder).isNone || !m.enable || (r.write.isSome && !m.w) then s.bar2Refuse f len r.write.isSome
    else
      let dpas := s.bar2Lines f r
      if s.boot.device = .lost && r.write.isSome then s
      else if s.boot.device = .lost && s.touchesLost dpas then s.emit (.data (List.replicate len 0) true)
      else match dpas.find? s.lineWaits with
        | some a =>
          if s.islandHalted (homeSlice a) then s.cross (homeSlice a) (.bar2Access f r)
          else s.enqueue ((chanOf a).getD 0) (.bar2Access f r)
        | none =>
          let s := s.bar2Faults dpas r.faults
          match r.write with
          | some b => s.polderWrite m.polder (State.bar2Offset m r) b
          | none => State.deliver (s.polderRead m.polder (State.bar2Offset m r) len false))

/-! ### Function resets -/

/-- Causes of EV_FUNCTION_RESET (Table 5-12). -/
def causeFlr : Nat := 0
def causeIde : Nat := 1
def causeDisabled : Nat := 2
def causeWithPf : Nat := 3

namespace State

/-- The bank without the entries of keys `[lo, hi)`. -/
def without {α : Type} (b : Bank α) (lo hi : Nat) : Bank α := b.keep fun k _ => !(decide (lo ≤ k) && decide (k < hi))

/-- A function's registers, queues, histories and event queue at their reset values (R125, R154, R216, R868, R871). -/
def freshFn (s : State) (f : Nat) : State :=
  let k := s.kym
  { s with
    kym := { k with fns := k.fns.erase f, pairs := without k.pairs (4 * f) (4 * f + 4)
                    seqs := without k.seqs (5 * f) (5 * f + 5), rung := without k.rung (5 * f) (5 * f + 5) }
    ev := { s.ev with queues := s.ev.queues.erase f, timeTorn := s.ev.timeTorn.erase f }
    host := { s.host with fns := s.host.fns.erase f } }

/-- A reset function: its lost-counters are cleared too (R215). -/
def clearFn (s : State) (f : Nat) : State :=
  let s := s.freshFn f
  { s with ev := { s.ev with lost := without s.ev.lost (32 * f) (32 * f + 32) } }

/-- Commands of a reset function: those running end without a reply, those whose final reply waits are reported (R127). -/
def orphanCommands (s : State) (f : Nat) : State :=
  let mine := fun (p : Path) => p.master == f
  let waiting := s.kym.heldReplies.filter fun r => mine r.path && r.final
  let s := { s with kym := { s.kym with
    running := s.kym.running.map fun r => if mine r.cmd.path then { r with orphan := true } else r
    heldReplies := s.kym.heldReplies.filter fun r => !mine r.path } }
  waiting.foldl (fun s r => s.raise 0x0104 sevNotice (functionUnit f)
    [(16, r.opcode), (3, match r.path with | .queue _ q => q | .urgent _ => 4 | .sideband => 0), (13, 0), (32, r.seq.toNat),
     (16, r.status)] (.fn 0) islWarden) s

/-- Resets one function (R100, R124-R127, R154, R215, R216, R270, R871). -/
def resetFn (s : State) (f cause : Nat) : State :=
  let s := s.raise 0x0F01 sevInfo (functionUnit f) [(4, cause), (8, 0)] (.fn 0)
  let s := (s.orphanCommands f).closeChannels f
  let s := s.beginInval (.function f) (.atsDisabled f)
  let s := { s with kym := { s.kym with leases := s.kym.leases.filter fun l => l.holder != f } }
  s.clearFn f

/-- Resets each of a list of functions. -/
def resetFns (s : State) (fs : List Nat) (cause : Nat) : State := fs.foldl (fun s f => s.resetFn f cause) s

end State

/-- R100, R124-R127, R154, R215, R216, R260, R270, R871: a reset of the PF resets every VF, whose enable it clears (log
entry 33). -/
def execFunctionLevelReset (f : Nat) (s : State) : Host.Outcome State Fault Refusal :=
  .next (if !s.barUp f then s
    else if f = 0 then
      let vfs := (List.range s.host.vfs).map (· + 1)
      let s := (s.resetFn 0 causeFlr).resetFns vfs causeWithPf
      { s with host := { s.host with vfEnable := false, vfs := 0 } }
    else s.resetFn f causeFlr)

/-- R215, R868: VFs 1 to k, the new ones at reset values; no lost-counter changes. -/
def execVfEnable (k : Nat) (s : State) : Host.Outcome State Fault Refusal :=
  .next (if !s.barUp 0 || s.boot.config != .full || decide (k > 127) || decide (k < s.host.vfs) then s
    else
      let new := (List.range k).map (· + 1) |>.filter fun f => decide (f > s.host.vfs)
      let s := new.foldl State.freshFn s
      { s with host := { s.host with vfEnable := true, vfs := k } })

/-- R100, R124-R127, R270, R869, R870: `k` VFs stay. -/
def execVfDisable (k : Nat) (s : State) : Host.Outcome State Fault Refusal :=
  .next (if !s.barUp 0 || decide (k ≥ s.host.vfs) then s
    else
      let gone := (List.range s.host.vfs).map (· + 1) |>.filter fun f => decide (f > k)
      let s := s.resetFns gone causeDisabled
      { s with host := { s.host with vfEnable := decide (k ≠ 0), vfs := k } })

/-! ### IDE -/

/-- R860, R861: a TLP of a Secure stream fails its MAC. -/
def execIdeMacFailure (i : Nat) (s : State) : Host.Outcome State Fault Refusal :=
  .next (match s.host.ide.get? i with
    | some x =>
      if x.state != .secure || s.islandHalted islHost then s
      else State.raise { s with host := { s.host with ide := s.host.ide.set i { x with state := .insecure } } }
        0x0F01 sevInfo (functionUnit x.fn) [(4, causeIde), (8, i)]
    | none => s)

/-- Number of a key in the HOST sealed cells: substream, direction, key set. -/
def ideKeyIndex (p : IdeKeyProg) : Nat := p.substream + 8 * natOf p.transmit + 16 * p.keySet

/-- The DOE mailbox answers after step 10, LOST included (R277, R862). -/
def State.doeUp (s : State) : Bool := s.boot.config == .full && !s.islandHalted islHost

/-- R860, R931, R940: keys arrive only in a secured session, and none while debug is unlocked. -/
def execIdeKmKeyProg (p : IdeKeyProg) (s : State) : Host.Outcome State Fault Refusal :=
  .next (if !s.doeUp then s
    else if !s.host.spdmSession then s.emit (.doe .invalid)
    else match s.host.ide.get? p.stream with
      | some x =>
        if s.sealed.unlocked.isSome || decide (p.substream > 2) || decide (p.keySet > 1) then
          s.emit (.doe (.keyProg p.stream false))
        else
          State.emit { s with host := { s.host with
            ide := s.host.ide.set p.stream { x with keys := x.keys.set (ideKeyIndex p) p.key } } }
            (.doe (.keyProg p.stream true))
      | none => s.emit (.doe (.keyProg p.stream false)))

/-- The stream that the TLPs of a function's association travel in, none unless one is Secure (R861). What the block sends is
listed without its stream (log entry 78). -/
def State.streamOf (s : State) (f : Nat) : Option Nat :=
  (s.host.ide.cells.find? fun c => c.2.fn == f && c.2.state == .secure).map (·.1)

/-- Every substream and direction of a stream has a key in some key set. -/
def IdeStream.keyed (x : IdeStream) : Bool :=
  [0, 16].any fun set => [0, 8].all fun dir => (List.range 3).all fun sub => x.keys.has (set + dir + sub)

/-! ### SPDM -/

/-- A measurement of Table 19-5 as the device holds it (R6, R863, R874). -/
def State.measurement (s : State) (i : Nat) : Bytes :=
  match i with
  | 1 => Config.romDigest
  | 2 => Config.imageDigest (s.image s.boot.bank).header
  | 3 => toLE 1 s.flash.rollbackFuses
  | 4 => orderingCode s.flash.sample ++ [0xB0] ++ toLE 4 0x14D32C1B
  | 5 => toLE 1 (natOf s.sealed.unlocked.isSome) ++ toLE 4 s.sealed.attempts
  | 6 => if s.cohort.blob.isEmpty then List.replicate 48 0 else s.ownManifest
  | _ => []

/-- The request needs fresh randomness: a nonce, or an ephemeral key (R909, R910). -/
def SpdmNeeds (r : SpdmRequest) : Bool :=
  match r with
  | .challenge _ | .keyExchange _ | .getMeasurements _ true => true
  | _ => false

namespace State

def answer (s : State) (r : SpdmRequest) (content : Bytes) : State := s.emit (.doe (.spdm r content))

/-- Content the spec does not give: signatures, nonces, certificates. -/
def answerFree (s : State) (r : SpdmRequest) (content : Bytes) : State :=
  (s.answer r (content ++ [Config.freeByte s.freeCtr])).tickFree

/-- A request that only a secured session carries. -/
def inSession (s : State) (f : State → State) : State := if s.host.spdmSession then f s else s.emit (.doe .invalid)

/-- R860, R862, R863, R910, R929, R932, Table 21-5: only certificate slot 0 is there. -/
def spdm (s : State) (r : SpdmRequest) : State :=
  match r with
  | .getVersion | .getCapabilities | .negotiateAlgorithms | .chunkSend | .chunkGet => s.answer r []
  | .getDigests => s.answerFree r []
  | .getCertificate slot => if slot = 0 then s.answerFree r [] else s.emit (.doe .invalid)
  | .challenge slot => if slot = 0 then s.answerFree r s.flash.identity else s.emit (.doe .invalid)
  | .getMeasurements i signed =>
    let content := if i = 0 then some [6] else if i = 255 then some ((List.range 6).flatMap fun j => s.measurement (j + 1))
      else if i ≤ 6 then some (s.measurement i) else none
    match content with
    | some c => if signed then s.answerFree r c else s.answer r c
    | none => s.emit (.doe .invalid)
  | .keyExchange slot =>
    if slot = 0 then State.answerFree { s with host := { s.host with spdmHandshake := true } } r []
    else s.emit (.doe .invalid)
  | .finish ok =>
    if s.host.spdmHandshake && ok then
      State.answer { s with host := { s.host with spdmHandshake := false, spdmSession := true } } r []
    else State.emit { s with host := { s.host with spdmHandshake := false } } (.doe .invalid)
  | .heartbeat | .keyUpdate => s.inSession fun s => s.answer r []
  | .endSession => s.inSession fun s => State.answer { s with host := { s.host with spdmSession := false } } r []
  | .ideKeySetGo i => s.inSession fun s =>
      match s.host.ide.get? i with
      | some x =>
        if x.keyed then
          let x := if x.state = .idle then { x with state := .secure } else x
          State.answer { s with host := { s.host with ide := s.host.ide.set i x } } r []
        else s.emit (.doe .invalid)
      | none => s.emit (.doe .invalid)
  | .ideKeySetStop i => s.inSession fun s =>
      match s.host.ide.get? i with
      | some x =>
        let x : IdeStream := { x with state := if x.state = .secure then .idle else x.state, keys := {} }
        State.answer { s with host := { s.host with ide := s.host.ide.set i x } } r []
      | none => s.emit (.doe .invalid)
  | .ideQuery => s.inSession fun s => s.answer r [8]
  | .other _ => s.emit (.doe .unsupported)

end State

/-- R6, R277, R862, R863, R874, R909, R910, R929, R932: versions 1.2 and 1.3. -/
def execSpdmRequest (version : Nat) (r : SpdmRequest) (s : State) : Host.Outcome State Fault Refusal :=
  .next (if !s.doeUp then s
    else if r != .getVersion && version != 0x12 && version != 0x13 then s.emit (.doe .versionMismatch)
    else if SpdmNeeds r && s.sealed.entropyFailed then s.emit (.doe .unspecified)
    else s.spdm r)

end Sys2Proof.Machine
end

