-- ==== Sys2Proof/Machine/Testing.lean ====
section
/-! DEFINITION. TEST_RUN and the end of a test (chapter 23). -/

namespace Sys2Proof.Machine

/-- Classes of Table 23-2 by test. -/
def testClass (test cls : Nat) : Bool :=
  match test with
  | 0 => ownStates cls
  | 1 => ownStates cls && cls != 0x07
  | 2 => cls == 0x07
  | _ => false

/-- Units a test places in UNDER_TEST, lowest number first (R968-R970, R980): those of the home islands for a logic
BIST, the die and its clusters for a wire test, the unit alone for a memory BIST. -/
def testUnits (test u : Nat) : List Nat :=
  let clusters := (List.range 64).map fun i => clusterUnit (64 * unitIndex u + i)
  if test = 1 then [u]
  else if unitClass u = 0x07 then clusters ++ [u]
  else ((homeIslands u).flatMap unitsOfIsland).filter fun x => ownStates (unitClass x)

namespace State

/-- The first unit that keeps a test from starting: its state. -/
def testHeld (s : State) (test u : Nat) : Option Fail :=
  match (testUnits test u).find? fun x => s.unitState x != .outOfService with
  | some x => failState 1 (unitCode (s.unitState x))
  | none => none

/-- The test starts: its units go UNDER_TEST and are reset (R267, R970). -/
def startTest (s : State) (test u : Nat) : State :=
  let s := (testUnits test u).foldl (fun s x => (s.changeUnit x .underTest byCommand).unitReset x) s
  { s with svc := { s.svc with testing := s.svc.testing.set u (test, s.now) } }

end State

def testRunCmd : Cmd where
  opcode := 0x1A01
  primary := .res
  lease := .excl
  accepted := true
  vf := false
  layout := [(16, 2, 0xFFFF), (18, 1, 0xFF)]
  ref _ k := k.u16 16
  bad _ k := badUnit (k.u16 16) 16 ownStates ++ badIf (!testClass (k.u8 18) (unitClass (k.u16 16))) 18
  check6 s k := (absent s (k.u16 16)).or (s.testHeld (k.u8 18) (k.u16 16))
  effect s k := { state := s.startTest (k.u8 18) (k.u16 16) }

/-- R967-R971, R980. -/
def execTestRun (k : KCmd) (s : State) : Host.Outcome State Fault Refusal := .next (s.kymal testRunCmd k)

/-- Bits in which two 64-bit words differ. -/
def bitsDiffer (a b : Nat) : Nat := ((List.range 64).filter fun i => bitOf a i != bitOf b i).length

/-- Verdict, signature, fail count and expected signature (R975, R976, Table 23-3). -/
def testVerdict (test : Nat) (o : TestOutcome) (start : Nat) : TestResult :=
  match test with
  | 0 =>
    let e := o.expected.getD (2 ^ 64 - 1)
    { verdict := if o.expected = some o.misr then 0 else 1, test := 0, failCount := bitsDiffer o.misr e, signature := o.misr
      expected := e, stamp := start }
  | 1 =>
    { verdict := if o.unrepaired = 0 then 0 else 1, test := 1, failCount := o.failing
      signature := packBits [(16, o.repaired), (16, o.spares)], expected := 0, stamp := start }
  | _ =>
    { verdict := if o.ports.isEmpty then 0 else 1, test := 2, failCount := o.failing
      signature := (o.ports.map (·.1)).eraseDups.foldl (fun m j => m + 2 ^ (j % 64)) 0, expected := 0, stamp := start }

namespace State

/-- The wire test's records: those of passing ports are cleared, failing ports are recorded and reported, each by its
first failing wire (R981, R982). -/
def wireResults (s : State) (d : Nat) (o : TestOutcome) : State :=
  let s := (List.range 64).foldl (fun s j =>
    s.setPort (64 * d + j) { s.port (64 * d + j) with dead := o.ports.any fun x => x.1 % 64 == j }) s
  (List.range 64).foldl (fun s j =>
    match o.ports.find? fun x => x.1 % 64 == j with
    | some x => s.wireDead d (clusterUnit (64 * d + j)) 4 x.2.1 x.2.2 0
    | none => s) s

/-- What a test leaves in the arrays it tested: zero (R972); row repairs stay (R973). -/
def afterTest (s : State) (test u : Nat) (o : TestOutcome) : State :=
  let s := if test = 2 then s.wireResults (unitIndex u) o else s
  let s := if test = 1 then { s with svc := { s.svc with repaired := s.svc.repaired.upd 0 u (· + o.repaired) } } else s
  if test = 2 then s
  else (testUnits test u).foldl (fun s x =>
    if unitClass x = 0x03 then s.setChan (unitIndex x) { s.chan (unitIndex x) with remaps := [] } else s) s

end State

/-- A test runs at its island's clock, and the warden forms its verdict (R974, R975): while a clock stands, or the warden does
not run, it does not end. -/
def State.testEnds (s : State) (u : Nat) : Bool := s.canReport && !(homeIslands u).any s.islandHalted

/-- R970, R972-R977, R979, R981, R982, Tables 23-3 and 23-4. -/
def execTestComplete (u : Nat) (o : TestOutcome) (s : State) : Host.Outcome State Fault Refusal :=
  .next (match if s.testEnds u then s.svc.testing.get? u else none with
    | none => s
    | some (test, start) =>
      let r := testVerdict test o start
      let s := s.afterTest test u o
      let held := if test = 0 then testUnits 0 u else [u]
      let results := held.foldl (fun (b : Bank TestResult) x => b.set x r) s.svc.results
      let s := { s with svc := { s.svc with results := results, testing := s.svc.testing.erase u } }
      let s := (testUnits test u).foldl (fun s x => s.changeUnit x .outOfService byCommand) s
      let s := s.raise 0x1102 sevInfo u [(3, test), (1, r.verdict), (4, 0), (24, min r.failCount (2 ^ 24 - 1)), (64, r.signature)]
        .unit islWarden
      s.endRunning 0x1A01 u { status := stOk, result := toLE 8 r.verdict ++ toLE 8 r.signature })

end Sys2Proof.Machine
end

