-- ==== Sys2Proof/Machine/Intake.lean ====
section
/-! DEFINITION. Intake, deferred final replies, queue errors and the end of a warden restart (chapters 03, 04). -/

namespace Sys2Proof.Machine

/-- An opcode that Kymal 3.2 does not know: check 3 refuses it. No minor version reaches 256. -/
def unknownCmd (opcode : Nat) : Cmd where
  opcode := opcode
  minor := 256
  primary := .none
  effect s _ := { state := s }

/-- The command catalogue by opcode (Table 4-2). -/
def cmdOf (opcode : Nat) : Option Cmd :=
  match opcode with
  | 0x0101 => some helloCmd
  | 0x0102 => some queueCreateCmd
  | 0x0103 => some queueDeleteCmd
  | 0x0104 => some queueResetCmd
  | 0x0105 => some leaseAcquireCmd
  | 0x0106 => some leaseReleaseCmd
  | 0x0107 => some leaseBreakCmd
  | 0x0108 => some resourceAssignCmd
  | 0x0201 => some orderArmCmd
  | 0x0202 => some orderClearCmd
  | 0x0203 => some orderQueryCmd
  | 0x0301 => some eventqConfigCmd
  | 0x0302 => some logReadCmd
  | 0x0303 => some countersReadCmd
  | 0x1001 => some polderCreateCmd
  | 0x1002 => some polderFreeCmd
  | 0x1003 => some polderResizeCmd
  | 0x1004 => some polderRestrengthCmd
  | 0x1005 => some polderRekeyCmd
  | 0x1006 => some polderSetSluiceCmd
  | 0x1007 => some sluiceConfigCmd
  | 0x1101 => some basinPartitionCmd
  | 0x1102 => some basinQuotaCmd
  | 0x1103 => some basinFlushCmd
  | 0x1201 => some spaceCreateCmd
  | 0x1202 => some spaceDestroyCmd
  | 0x1203 => some translateFillCmd
  | 0x1204 => some invalRangeCmd
  | 0x1205 => some invalTagCmd
  | 0x1206 => some apertureMapCmd
  | 0x1207 => some apertureUnmapCmd
  | 0x1208 => some accessCountSetCmd
  | 0x1301 => some channelOpenCmd
  | 0x1302 => some channelCloseCmd
  | 0x1303 => some channelResumeCmd
  | 0x1401 => some caddyStageCmd
  | 0x1402 => some caddyInfuseCmd
  | 0x1403 => some caddyBindCmd
  | 0x1404 => some caddyUnbindCmd
  | 0x1405 => some caddyEvictCmd
  | 0x1406 => some programStartCmd
  | 0x1407 => some programStopCmd
  | 0x1408 => some contextMoveCmd
  | 0x1501 => some clusterBindCmd
  | 0x1502 => some clusterUnbindCmd
  | 0x1601 => some powerQueryCmd
  | 0x1602 => some islandClockSetCmd
  | 0x1701 => some portTrainCmd
  | 0x1702 => some portQualifyCmd
  | 0x1703 => some portMarginCmd
  | 0x1704 => some trunkConfigCmd
  | 0x1705 => some windowSetCmd
  | 0x1706 => some cohortConfigCmd
  | 0x1707 => some cohortEpochCmd
  | 0x1708 => some timeLeaderSetCmd
  | 0x1801 => some patrolConfigCmd
  | 0x1802 => some remapScheduleCmd
  | 0x1803 => some healthReadCmd
  | 0x1901 => some unitQueryCmd
  | 0x1902 => some unitDrainCmd
  | 0x1903 => some unitReturnCmd
  | 0x1904 => some serviceEnterCmd
  | 0x1905 => some fwStageCmd
  | 0x1906 => some fwActivateCmd
  | 0x1A01 => some testRunCmd
  | 0x1A02 => some testResultCmd
  | 0x1B01 => some keyGenerateCmd
  | 0x1B02 => some keyDestroyCmd
  | 0x1B03 => some debugChallengeCmd
  | 0x1B04 => some debugUnlockCmd
  | _ => none

namespace State

/-- Runs a command read from a path; an unknown opcode fails check 3. -/
def runOpcode (s : State) (opcode : Nat) (k : KCmd) : State := s.runCmd ((cmdOf opcode).getD (unknownCmd opcode)) k

/-! ### Intake -/

/-- A queue whose pair exists, is not failed, and has a command and two free reply entries past those still owed (R73, R123). -/
def queueReady (s : State) (f q : Nat) : Bool :=
  match s.pair? f q with
  | some p => !p.failed && p.head != p.tail && decide (p.unread + s.owed (.queue f q) + 2 ≤ p.rqSize)
  | none => false

/-- The command at a position has fence set: `fenced` lists the queue and mailbox positions whose next command has (R78). -/
def fenceAt (s : State) (pos : Nat) (fenced : List Nat) : Bool :=
  match pathOf pos with
  | .sideband => (s.kym.sideband.head?.map fun c => c.2.fence).getD false
  | .urgent f => bitOf (fieldAt (s.kymFn f).urgCmd 2 2) 2
  | .queue _ _ => fenced.contains pos

/-- Intake takes a command from a position it visits (R76, R78). -/
def takeable (s : State) (pos : Nat) (fenced : List Nat) : Bool :=
  s.kym.rung.has pos && !(s.fenceAt pos fenced && s.owed (pathOf pos) != 0)
    && match pathOf pos with
      | .queue f q => s.queueReady f q
      | .urgent f => !(s.kymFn f).urgBusy
      | .sideband => !s.kym.sideband.isEmpty

/-- The position intake serves next (R76, R77). -/
def nextPosition (s : State) (fenced : List Nat) : Option Nat :=
  let start := match s.kym.lastPos with | some p => p + 1 | none => 0
  ((List.range 641).map fun i => (start + i) % 641).find? fun p => s.takeable p fenced

/-- The queue's head moves past the command; the pending bit stays while more wait. -/
def takeEntry (s : State) (f q : Nat) : State :=
  match s.pair? f q with
  | some p =>
    let h := (p.head + 1) % p.cqSize
    let s := s.setPair f q { p with head := h }
    if h = p.tail then s.unring (5 * f + q) else s
  | none => s

/-- The read of an entry's indirect buffer, when its descriptor is in order: under the function's own requester ID, with no
PASID, of the address untranslated (R66). -/
def readBuffer (s : State) (k : KCmd) : State :=
  if k.ind && !k.isSideband && (bufferBad k).isEmpty then s.emit (.hostRead k.master none k.bufAddr k.bufLen) else s

/-- The read of the next entry of a command ring (R66). -/
def readRing (s : State) (f q : Nat) : State :=
  match s.pair? f q with
  | some p => s.emit (.hostRead f none (p.cbase + 128 * p.head) 128)
  | none => s

/-- Intake takes the command at a position and the warden judges it (R66, R77-R80). -/
def takeAt (s : State) (pos : Nat) (entry ext : Bytes) (a : Answers) : State :=
  let s := { s with kym := { s.kym with lastPos := some pos } }
  match pathOf pos with
  | .sideband =>
    match s.kym.sideband with
    | [] => s
    | (op, k) :: t =>
      let s := { s with kym := { s.kym with sideband := t } }
      (if t.isEmpty then s.unring pos else s).runOpcode op k
  | .urgent f =>
    let c := KCmd.parse (.urgent f) (s.kymFn f).urgCmd ext a
    ((s.unring pos).readBuffer c.2).runOpcode c.1 c.2
  | .queue f q =>
    let c := KCmd.parse (.queue f q) entry ext a
    (((s.readRing f q).takeEntry f q).readBuffer c.2).runOpcode c.1 c.2

end State

/-- R11, R21-R23, R66, R68, R70-R89, R115-R119, R136-R161, R1023, R1026: `entry` is what the warden reads from the
command ring, `ext` the indirect buffer, `fenced` the positions whose next command is fenced. -/
def execIntakeTake (entry ext : Bytes) (fenced : List Nat) (answers : Answers) (s : State) :
    Host.Outcome State Fault Refusal :=
  .next (if !s.wardenTakes then s
    else match s.nextPosition fenced with
      | none => s
      | some pos => s.takeAt pos entry ext answers)

/-! ### Warden restart -/

namespace State

/-- Jobs the warden gave the Infusers for a command are dropped. -/
def dropInfJobs (s : State) (gone : JobOwner → Bool) : State :=
  { s with inf := { s.inf with
      units := s.inf.units.map fun _ (u : InfUnit) => { u with jobs := u.jobs.filter fun j => !gone j.owner }
      queue := s.inf.queue.filter fun j => !gone j.owner } }

/-- The invalidations of an interrupted command run to their end and answer nobody: a reissue runs its own (R149, R166). -/
def disownInvals (s : State) (opcode ref : Nat) : State :=
  { s with xlat := { s.xlat with invals := s.xlat.invals.map fun v =>
      if v.cause = InvalCause.command opcode ref then { v with cause := InvalCause.interrupted } else v } }

/-- A port out of service and untrained, its counters and scans discarded (Table 4-3). -/
def abandonPort (s : State) (p : Nat) : State :=
  let s := if s.portUp p then s.leaveActive p leaveDrain 7 else s
  let x := s.lport p
  (s.setLport p { x.untrained with margins := {}, scanning := none, corrected := 0, checkOnly := 0, uncorrectable := 0
                                   replays := 0 }).changeUnit (portUnit p) .outOfService byFailure

/-- A pending break no longer stands. -/
def dropBreak (s : State) (ref : Nat) (p : Path) (seq : BitVec 32) : State :=
  let left := (s.kym.breaks.get [] ref).filter fun b => !(decide (b.path = p) && b.seq == seq)
  { s with kym := { s.kym with breaks :=
      if left.isEmpty then s.kym.breaks.erase ref else s.kym.breaks.set ref left } }

/-- The intermediate state in which an interrupted command leaves its resource (R148, Table 4-3). Where none is named
here, what the command has done so far is that state. -/
def interrupt (s : State) (r : Running) : State :=
  let u := unitIndex r.ref
  let s := s.disownInvals r.opcode r.ref
  if r.outcome.isSome then s
  else if r.opcode = 0x0107 then s.dropBreak r.ref r.cmd.path r.cmd.seq
  else if r.opcode = 0x1003 then
    match s.polder? u with
    | some p =>
      let vs := p.piecesAbove (unitsOf p.tier p.size)
      (s.freePieces vs).setPolder u { p with place := p.place.keep fun j _ => decide (j < unitWidth p.tier * unitsOf p.tier p.size) }
    | none => s
  else if r.opcode = 0x1302 then
    let k := chanKey r.cmd
    s.setPchan k { s.pchan k with closing := none }
  else if r.opcode = 0x1402 then
    (s.dropInfJobs fun o => match o with | .infuse c _ _ => c == refId r.ref | _ => false).modCaddy (refId r.ref) fun c =>
      { c with waiting := [], digests := {}, failure := none }
  else if r.opcode = 0x1408 then s.dropInfJobs fun o => match o with | .context ref => ref == r.ref | _ => false
  else if r.opcode = 0x1701 || r.opcode = 0x1702 || r.opcode = 0x1703 then s.abandonPort u
  else if r.opcode = 0x1906 then { s with kym := { s.kym with activating := none } }
  else if r.opcode = 0x1A01 then
    match s.svc.testing.get? r.ref with
    | some (test, _) =>
      let held := if test = 0 then testUnits 0 r.ref else [r.ref]
      let s := { s with svc := { s.svc with testing := s.svc.testing.erase r.ref
                                            results := held.foldl (fun (b : Bank TestResult) x => b.erase x) s.svc.results } }
      (testUnits test r.ref).foldl (fun s x => s.changeUnit x .outOfService byCommand) s
    | none => s
  else s

/-- Every command taken before a restart that has no final reply ends with ST_INTERNAL, detail 1 (R129, R136). One whose
final reply was made before and waits for its pair keeps that reply (DESIGN CHOICE, log entry 61). -/
def endInterrupted (s : State) : State :=
  s.kym.running.foldl (fun s r => (s.interrupt r).concludeRunning r { status := stInternal, detail := 1 }) s

/-- EV_WARDEN_LOCKSTEP before any command is taken (R63). -/
def reportMismatch (s : State) : State :=
  if !s.kym.mismatchPending then s
  else
    let k := s.kym
    State.raise { s with kym := { k with mismatchPending := false } } 0x0101 sevFailed wardenUnit
      [(64, k.mismatchAt), (16, k.mismatches)]

end State

/-- R63, R71, R128, R129, R148, R219, R269, R927: `bankOk` is what verifying the running bank again finds. -/
def execWardenRestartComplete (bankOk : Bool) (s : State) : Host.Outcome State Fault Refusal :=
  .next (if s.kym.warden != .restarting || s.kym.restartFailed || s.islandHalted islWarden then s
    else if !bankOk then { s with kym := { s.kym with restartFailed := true } }
    else
      let s : State := { s with kym := { s.kym with warden := .running, sidebandVersion := none } }
      s.reportMismatch.replayHeld.reportSeal.releaseAll.endInterrupted)

/-! ### Replies owed -/

/-- R93, R127: an accepted command that is at its end sends its final reply; `answers` is what the work found. An internal
failure is met when the command is judged, before it has any effect, and not here (R89; DEDUCED, log entry 7). -/
def execDeferredFinalReply (p : Path) (seq : BitVec 32) (answers : Answers) (s : State) :
    Host.Outcome State Fault Refusal :=
  .next (if s.kym.warden != .running || s.islandHalted islWarden then s
    else match s.kym.running.find? fun r => decide (r.cmd.path = p) && r.cmd.seq == seq with
      | none => s
      | some r =>
        match cmdOf r.opcode with
        | none => s
        | some c =>
          match c.finish s r answers with
          | none => s
          | some (s', f) =>
            let s := s'.concludeRunning r f
            if r.orphan then s else s.sendData p f.data)

/-- R109-R114: the break takes effect once no accepted command of a holder on the resource is left. -/
def execLeaseBreakEffect (ref : Nat) (s : State) : Host.Outcome State Fault Refusal :=
  .next (if s.kym.warden != .running || s.islandHalted islWarden then s
    else match (s.kym.breaks.get [] ref).find? fun b => !s.breakWaits ref b.breaker with
      | none => s
      | some b =>
        match s.kym.running.find? fun r => r.opcode == 0x0107 && r.ref == ref && decide (r.cmd.path = b.path)
            && r.cmd.seq == b.seq with
        | none => s.dropBreak ref b.path b.seq
        | some r =>
          let x := s.breakLeases ref b.breaker b.take
          (x.1.dropBreak ref b.path b.seq).concludeRunning r { status := stOk, result := toLE 2 x.2 })

/-! ### Queue errors -/

namespace State

/-- Marks a pair failed and reports it (R121, R122). -/
def failQueue (s : State) (f q : Nat) (e : QueueFault) : State :=
  match s.pair? f q with
  | some p =>
    if p.failed then s
    else (s.setPair f q { p with failed := true }).raise 0x0103 sevFailed (functionUnit f)
      [(2, q), (1, natOf e.write), (1, natOf e.poison), (4, 0), (64, e.addr)] .unit islWarden
  | none => s

/-- A command whose indirect buffer could not be read: not executed, its sequence consumed, ST_BAD_FIELD owed (R1028). -/
def badBufferReply (s : State) (opcode : Nat) (k : KCmd) : State :=
  match seqCheck s opcode k with
  | some r => s.sendReply r
  | none => (s.takeSeq k.path k.seq opcode).finalReply
      { path := k.path, opcode := opcode, seq := k.seq, status := stBadField, detail := 112 }

end State

/-- R76, R78, R121-R123, R1028: a command already taken came from the position intake serves next. -/
def execQueueAccessError (e : QueueFault) (s : State) : Host.Outcome State Fault Refusal :=
  .next (if !s.wardenTakes then s
    else
      let served := decide (s.nextPosition e.fenced = some e.path.position)
      let took := { s with kym := { s.kym with lastPos := some e.path.position } }
      match e.path, e.taken with
      | .queue f q, none => if (s.pair? f q).isSome then s.failQueue f q e else s
      | .queue f q, some (op, k) =>
        let k := { k with path := e.path }
        if served && s.pathOpen k then
          ((((took.readRing f q).takeEntry f q).readBuffer k).failQueue f q e).badBufferReply op k
        else s
      | .urgent f, some (op, k) =>
        let k := { k with path := e.path }
        if served && s.pathOpen k then ((took.unring (5 * f + 4)).readBuffer k).badBufferReply op k else s
      | .urgent _, none | .sideband, _ => s)

end Sys2Proof.Machine
end

