-- ==== Sys2Proof/Machine/Jtag.lean ====
section
/-! DEFINITION. The JTAG port (chapters 00, 08, 21, 23, 24). -/

namespace Sys2Proof.Machine

/-- The IDCODE of stepping B0 (R4). -/
def jtagIdcode : Nat := 0x14D32C1B

namespace State

/-- An instruction is selected: the TAP leaves its reset state. -/
def selectInstr (s : State) (drives : Bool) : State := { s with host := { s.host with tapReset := false, boundaryScan := drives } }

/-- The BYPASS register: one bit, captured as 0. -/
def bypass (s : State) : State := (s.selectInstr false).emit (.jtag 0 1)

/-- Data and length of a register this manual does not lay out are free. -/
def jtagFree (s : State) (drives : Bool) : State :=
  ((s.selectInstr drives).emit (.jtag s.freeNat (Config.freeNat (s.freeCtr + 1)))).tickFree.tickFree

end State

/-- R4, R5, R359, R935, R938, R1012: a locked part runs an instruction Table 21-7 does not list as BYPASS; an unlocked one
opens what its scope bits say. -/
def execJtagBoundaryScan (i : JtagInstr) (s : State) : Host.Outcome State Fault Refusal :=
  .next (if !s.boot.pwrOk then s
    else match i with
      | .bypass => s.bypass
      | .idcode => (s.selectInstr false).emit (.jtag jtagIdcode 32)
      | .samplePreload => s.jtagFree false
      | .extest | .extestPulse | .extestTrain => s.jtagFree true
      | .clamp | .highz => (s.selectInstr true).emit (.jtag 0 1)
      | .other scope =>
        match s.sealed.unlocked with
        | some open_ => if decide (scope < 3) && bitOf open_ scope then s.jtagFree false else s.bypass
        | none => s.bypass)

/-- R935, R985, Tables 1-1 and 21-7. -/
def execBondExtest (s : State) : Host.Outcome State Fault Refusal :=
  .next (if !s.boot.pwrOk then s
    else if s.sealed.slots.cells.isEmpty && (List.range 48).all (fun p => !s.portUp p) then
      (s.jtagFree true).emit (.bondPattern 4568 19376)
    else s.bypass)

/-- R220-R223, R935, Table 5-10: TORN is bit 32 of what a high-half read captures. -/
def execJtagSbrAccess (offset : Nat) (s : State) : Host.Outcome State Fault Refusal :=
  let r := s.sbrRead s.ev.jtagSlot offset
  let torn := s.ev.jtagTorn || r.2.2
  let high := decide (offset = 0x0014)
  .next (if !s.boot.pwrOk || !s.boot.smbusUp || s.islandHalted islHost then s
    else
      let s := { s with ev := { s.ev with jtagSlot := r.2.1, jtagTorn := torn && !high } }
      (s.selectInstr false).emit (.jtag (r.1 + 2 ^ 32 * natOf (high && torn)) 33))

/-- R359, R935, Table 21-7: TEST_RUN on an OUT_OF_SERVICE unit, or TEST_RESULT where no test is given. -/
def execJtagTestrun (test : Option Nat) (u : Nat) (s : State) : Host.Outcome State Fault Refusal :=
  .next (if !s.boot.pwrOk then s
    else
      let say := fun (s : State) (st d : Nat) (r : Bytes) => (s.selectInstr false).emit (.testRun st d r)
      let bad := fun (off : Nat) => say s stBadField off []
      match test with
      | some t =>
        if !(unitValid u && ownStates (unitClass u)) then bad 16
        else if !testClass t (unitClass u) then bad 18
        else match s.testHeld t u with
          | some f => say s f.status f.detail []
          | none => say (s.startTest t u) stAccepted 0 []
      | none =>
        if !unitValid u then bad 16
        else if s.unitState u != .outOfService then say s stState (stateDetail 1 (unitCode (s.unitState u))) []
        else match s.svc.results.get? u with
          | some r => say s stOk 0 (toLE 1 r.verdict ++ toLE 1 r.test ++ toLE 2 0 ++ toLE 4 r.failCount
              ++ toLE 8 r.signature ++ toLE 8 r.expected ++ toLE 8 r.stamp)
          | none => say s stState (stateDetail 2 0) [])

/-- R1012: the TAP is in reset, and its next data register is IDCODE. -/
def execTrstNAssert (s : State) : Host.Outcome State Fault Refusal :=
  .next { s with host := { s.host with tapReset := true, boundaryScan := false } }

end Sys2Proof.Machine
end

