-- ==== Sys2Proof/Machine/SeqRows.lean ====
section
/-! DEFINITION. The 39 instructions of the stream sequencers (chapter 15). -/

namespace Sys2Proof.Machine

/-- A run of local scratch. -/
def scr (a n : Nat) : Span := ⟨kScratch, a, n⟩

/-- An instruction that touches neither scratch nor memory. -/
def noTouch : View → SInstr → State.Touch := fun _ _ => {}

namespace State

/-! ### Control and arithmetic -/

/-- Links, if it does, and goes to a target; `extra` cycles more than a branch not taken (R666). -/
def seqJump (s : State) (q : Nat) (link : Option Nat) (base n disp extra : Nat) : State :=
  s.modSq q fun x =>
    let y := match link with
      | some a => x.result a (BitVec.ofNat 64 (x.pc + 1)) 1
      | none => x
    (y.elapse extra).jump base n disp

end State

/-- R706. -/
def execOpNop (q : Nat) (s : State) : Host.Outcome State Fault Refusal :=
  .next (s.issue q 0x01 [] noTouch fun s _ _ => some (s.seqNext q))

/-- R666. -/
def execOpJal (q : Nat) (s : State) : Host.Outcome State Fault Refusal :=
  .next (s.issue q 0x02 [] noTouch fun s _ i => match i with
    | .jal a imm => some (s.seqJump q (some a) (s.sq q).pc 32 imm 0)
    | _ => none)

/-- R666. -/
def execOpJalr (q : Nat) (s : State) : Host.Outcome State Fault Refusal :=
  .next (s.issue q 0x03 [] noTouch fun s v i => match i with
    | .jalr a b imm => some (s.seqJump q (some a) (v b).toNat 32 imm 0)
    | _ => none)

/-- R666, Table 15-4. -/
def execOpBr (q : Nat) (s : State) : Host.Outcome State Fault Refusal :=
  .next (s.issue q 0x04 [] noTouch fun s v i => match i with
    | .br b c cond imm =>
      some (if condHolds cond (v b) (v c) then s.seqJump q none (s.sq q).pc 32 imm 1 else s.seqNext q)
    | _ => none)

/-- R666, Table 15-4. -/
def execOpBri (q : Nat) (s : State) : Host.Outcome State Fault Refusal :=
  .next (s.issue q 0x05 [] noTouch fun s v i => match i with
    | .bri b cond imm off =>
      some (if condHolds cond (v b) (sext 16 imm) then s.seqJump q none (s.sq q).pc 16 off 1 else s.seqNext q)
    | _ => none)

/-- R706. -/
def execOpSel (q : Nat) (s : State) : Host.Outcome State Fault Refusal :=
  .next (s.issue q 0x06 [] noTouch fun s v i => match i with
    | .sel a b c d => some (s.seqResult q a (if v d != 0 then v b else v c) 1)
    | _ => none)

/-- R646, R647, R667. -/
def execOpEnd (q : Nat) (s : State) : Host.Outcome State Fault Refusal :=
  .next (s.issue q 0x07 [] noTouch fun s _ _ => some ((s.modSq q fun x => { x with wait := some .finish }).finishEnd q))

/-- R672, Table 15-3. -/
def execOpAlu (q : Nat) (s : State) : Host.Outcome State Fault Refusal :=
  .next (s.issue q 0x10 [] noTouch fun s v i => match i with
    | .alu a b c fn => some (s.seqResult q a (aluFn fn (v b) (v c)) i.latency)
    | _ => none)

/-- R672, Table 15-3. -/
def execOpAlui (q : Nat) (s : State) : Host.Outcome State Fault Refusal :=
  .next (s.issue q 0x11 [] noTouch fun s v i => match i with
    | .alui a b fn imm => some (s.seqResult q a (aluFn fn (v b) (sext 32 imm)) i.latency)
    | _ => none)

/-- R706. -/
def execOpLi (q : Nat) (s : State) : Host.Outcome State Fault Refusal :=
  .next (s.issue q 0x12 [] noTouch fun s _ i => match i with
    | .li a imm => some (s.seqResult q a (sext 32 imm) i.latency)
    | _ => none)

/-- R706. -/
def execOpLih (q : Nat) (s : State) : Host.Outcome State Fault Refusal :=
  .next (s.issue q 0x13 [] noTouch fun s v i => match i with
    | .lih a imm => some (s.seqResult q a (BitVec.ofNat 64 (imm * 2 ^ 32 + (v a).toNat % 2 ^ 32)) i.latency)
    | _ => none)

/-! ### Local scratch (R669, R671, R673) -/

/-- The span an LDS or STS touches. -/
def scratchTouch (v : View) (i : SInstr) : State.Touch :=
  match i with
  | .lds _ b size _ imm => { scratch := [scr (ea v b imm size) (2 ^ size)] }
  | .sts b _ size imm => { writes := [scr (ea v b imm size) (2 ^ size)] }
  | _ => {}

/-- The value of a load (chapter 15). -/
def loadValue (size : Nat) (signed : Bool) (bs : Bytes) : BitVec 64 :=
  if signed then sext (8 * 2 ^ size) (leNat bs) else zext (8 * 2 ^ size) (leNat bs)

/-- R673. -/
def execOpLds (q : Nat) (faults : List WordFault) (s : State) : Host.Outcome State Fault Refusal :=
  .next (s.issue q 0x18 faults scratchTouch fun s v i => match i with
    | .lds a b size signed imm =>
      let at_ := ea v b imm size
      some (if at_ > 0xFFFF then s.seqTrap q 3 at_ 0
        else if (s.sq q).badIn at_ (2 ^ size) then s.seqTrap q 2 at_ 0
        else s.seqResult q a (loadValue size signed ((s.sq q).look s.freeCtr at_ (2 ^ size))) i.latency)
    | _ => none)

/-- R673: a store of less than a word merges into it. -/
def execOpSts (q : Nat) (faults : List WordFault) (s : State) : Host.Outcome State Fault Refusal :=
  .next (s.issue q 0x19 faults scratchTouch fun s v i => match i with
    | .sts b c size imm =>
      let at_ := ea v b imm size
      some (if at_ > 0xFFFF then s.seqTrap q 3 at_ 0
        else if size < 3 && (s.sq q).badIn at_ (2 ^ size) then s.seqTrap q 2 at_ 0
        else (s.modSq q fun x => x.write at_ (toLE (2 ^ size) (v c).toNat)).seqNext q)
    | _ => none)

/-! ### Memory (R670, R674-R679) -/

/-- The span a load or store touches: ordered by its line among the sequencer's own stores and reducer operations. -/
def memTouch (v : View) (i : SInstr) : State.Touch :=
  match i with
  | .ld _ b size _ kind imm => { ordered := true, reads := [⟨kind, ea v b imm size, 2 ^ size⟩] }
  | .ldPair _ b kind imm => { ordered := true, reads := [⟨kind, ea v b imm 4, 16⟩] }
  | .st b _ size kind imm => { ordered := true, writes := [⟨kind, ea v b imm size, 2 ^ size⟩] }
  | .stPair b _ kind imm => { ordered := true, writes := [⟨kind, ea v b imm 4, 16⟩] }
  | _ => {}

namespace State

/-- Begins a blocking load; an address the program may not reach traps. -/
def seqLoad (s : State) (q kind addr size : Nat) (signed pair : Bool) (reg : Nat) : State :=
  if s.seqPlace q none kind addr = .outside then s.seqTrap q 3 addr 0
  else s.modSq q fun x => { x with wait := some (.load kind addr size signed pair reg) }

/-- Posts a store; a 33rd waits (Table 15-7). -/
def seqStore (s : State) (q kind addr : Nat) (data : Bytes) : Option State :=
  if s.seqPlace q none kind addr = .outside then some (s.seqTrap q 3 addr 0)
  else if s.opLimit q || decide (((s.sq q).ops.filter fun o => o.cls == 5).length ≥ 32) then none
  else
    let o : SeqOp := { id := 0, index := 0, cls := 5, work := .store kind addr data,
                       writes := if (s.sq q).debug then [⟨kind, addr, data.length⟩] else [] }
    some ((s.addOp q o).1.seqNext q)

end State

/-- R678. -/
def execOpLd (q : Nat) (s : State) : Host.Outcome State Fault Refusal :=
  .next (s.issue q 0x20 [] memTouch fun s v i => match i with
    | .ld a b size signed kind imm => some (s.seqLoad q kind (ea v b imm size) size signed false a)
    | _ => none)

/-- R677. -/
def execOpSt (q : Nat) (s : State) : Host.Outcome State Fault Refusal :=
  .next (s.issue q 0x21 [] memTouch fun s v i => match i with
    | .st b c size kind imm => s.seqStore q kind (ea v b imm size) (toLE (2 ^ size) (v c).toNat)
    | _ => none)

/-- R675, R676. -/
def execOpLdPair (q : Nat) (s : State) : Host.Outcome State Fault Refusal :=
  .next (s.issue q 0x22 [] memTouch fun s v i => match i with
    | .ldPair a b kind imm => some (s.seqLoad q kind (ea v b imm 4) 4 false true a)
    | _ => none)

/-- R675, R676. -/
def execOpStPair (q : Nat) (s : State) : Host.Outcome State Fault Refusal :=
  .next (s.issue q 0x23 [] memTouch fun s v i => match i with
    | .stPair b c kind imm => s.seqStore q kind (ea v b imm 4) (toLE 8 (v c).toNat ++ toLE 8 (v (c + 1)).toNat)
    | _ => none)

/-- R679: the line allocates on a miss; nothing is delivered. -/
def execOpPref (q : Nat) (s : State) : Host.Outcome State Fault Refusal :=
  .next (s.issue q 0x24 [] memTouch fun s v i => match i with
    | .pref b kind imm =>
      let at_ := ea v b imm 0
      match s.seqPlace q none kind at_ with
      | .outside => some (s.seqTrap q 3 at_ 0)
      | .polder p o =>
        if s.placeWaits (.polder p (alignDown o 128)) 128 then none
        else some ((s.polderRead p (alignDown o 128) 128 true).1.seqNext q)
      | _ => some (s.seqNext q)
    | _ => none)

/-! ### Issuing work (R680-R683) -/

/-- The scratch address of a descriptor, and of the word its unit completes it with. -/
def descAddr (v : View) (b : Nat) : Nat := clearLow (v b) 6

/-- What a pump descriptor reads and writes (H3). -/
def descSpans (raw : Bytes) : List Span × List Span :=
  let d := parseDesc raw
  let of_ := fun kind (l : List Seg) => l.map fun g => (⟨kind, g.addr, g.len⟩ : Span)
  (of_ d.srcKind d.srcSegs ++ of_ d.dstKind d.refSegs, of_ d.dstKind d.dstSegs ++ of_ d.dstKind d.refSegs)

/-- What a gather job reads: its score table and its blocks. -/
def gatherSpans (raw : Bytes) : List Span :=
  let g := parseGather raw
  ⟨g.scoreKind, g.table, (2 * g.blocks + 63) / 64 * 64⟩
    :: (List.range g.blocks).flatMap fun b => [⟨g.kind, g.kBase + b * g.pitch, g.size⟩, ⟨g.kind, g.vBase + b * g.pitch, g.size⟩]

/-- What an Infuser job reads and writes. -/
def infSpans (raw : Bytes) : List Span × List Span :=
  let d := parseInf raw
  ([⟨d.srcKind, d.src, d.len⟩], [⟨d.dstKind, d.dst, d.cap⟩])

namespace State

/-- Reads a descriptor: trap cause and address, or its 64 bytes (R671, R673, R680). -/
def takeDesc (s : State) (q at_ : Nat) : (Nat × Nat) ⊕ Bytes :=
  if at_ > 0xFFFF then .inl (3, at_) else if (s.sq q).badIn at_ 64 then .inl (2, at_) else .inr ((s.sq q).look s.freeCtr at_ 64)

/-- What an issue instruction touches, from the descriptor as it stands in scratch. -/
def issueTouch (s : State) (q : Nat) (v : View) (i : SInstr) : Touch :=
  match i with
  | .pumpIss _ b _ =>
    let at_ := descAddr v b
    let (r, w) := descSpans ((s.sq q).read at_ 64)
    { scratch := [scr at_ 64], reads := r, writes := scr (at_ + 56) 8 :: w }
  | .gathIss _ b c _ =>
    let at_ := descAddr v b
    { scratch := [scr at_ 64], reads := gatherSpans ((s.sq q).read at_ 64), writes := [scr (clearLow (v c) 4) 16] }
  | .infIss _ b =>
    let at_ := descAddr v b
    let (r, w) := infSpans ((s.sq q).read at_ 64)
    { scratch := [scr at_ 64], reads := r, writes := scr (at_ + 56) 8 :: w }
  | _ => {}

/-- Spans kept with an operation: scratch always, memory for the detector only. -/
def keptSpans (s : State) (q : Nat) (l : List Span) : List Span := if (s.sq q).debug then l else l.filter fun p => p.kind == kScratch

/-- The lane is bound to a cluster of the caddy of sequencer `q` (chapter 14). -/
def ownsLane (s : State) (q l : Nat) : Bool :=
  match s.boundTo (.gather l) 0 with
  | some (c, _) => (s.port c).caddy == (s.sq q).caddy
  | none => false

end State

/-- R680, R681. A descriptor goes to the n-th channel the caddy was given. -/
def execOpPumpIss (q : Nat) (faults : List WordFault) (s : State) : Host.Outcome State Fault Refusal :=
  .next (s.issue q 0x30 faults (s.issueTouch q) fun s v i => match i with
    | .pumpIss a b slot =>
      let at_ := descAddr v b
      match (s.bindingOf q).chans[slot]?, s.takeDesc q at_ with
      | none, _ => some (s.seqTrap q 3 0 0)
      | some _, .inl (cause, addr) => some (s.seqTrap q cause addr 0)
      | some k, .inr raw =>
        if s.opLimit q || decide (((s.pchan k).descs.filter fun d => !d.completed).length ≥ 16) then none
        else
          let t := s.issueTouch q v i
          let o : SeqOp := { id := 0, index := 0, cls := 0, counter := some a, scratch := at_ + 56,
                             reads := s.keptSpans q t.reads, writes := s.keptSpans q t.writes }
          let (s, tag) := s.addOp q o
          let index := (s.pchan k).next
          let s := s.enqueueDesc k index raw (some tag)
          some ((s.setPchan k { s.pchan k with next := (index + 1) % 65536 }).seqNext q)
    | _ => none)

/-- R682, R681. A lane that the program does not own traps (Table 14-3). -/
def execOpGathIss (q : Nat) (faults : List WordFault) (s : State) : Host.Outcome State Fault Refusal :=
  .next (s.issue q 0x31 faults (s.issueTouch q) fun s v i => match i with
    | .gathIss a b c engine =>
      let at_ := descAddr v b
      let rec_ := clearLow (v c) 4
      match s.takeDesc q at_ with
      | .inl (cause, addr) => some (s.seqTrap q cause addr 0)
      | .inr raw =>
        let l := 64 * engine + byteAt raw 1
        if rec_ > 0xFFFF then some (s.seqTrap q 3 rec_ 0)
        else if byteAt raw 1 > 63 || !s.ownsLane q l then some (s.seqTrap q 3 0 (gatherUnit engine))
        else if (s.sq q).spare < 2 then some (s.seqTrap q 6 0 0)
        else if s.opLimit q || decide ((s.lane l).jobs.length ≥ 5) then none
        else
          let t := s.issueTouch q v i
          let o : SeqOp := { id := 0, index := 0, cls := 1, counter := some a, scratch := rec_, tokens := 2,
                             reads := s.keptSpans q t.reads, writes := t.writes }
          let (s, tag) := s.addOp q o
          let open_ := s.inService (gatherUnit engine)
          let j : GatherJob := { raw := raw, tag := tag, caddy := s.slotOf q, status := if open_ then 0 else 0x22 }
          some ((s.setLane l { s.lane l with jobs := (s.lane l).jobs ++ [j] }).seqNext q)
    | _ => none)

/-- R682, R681, R529. -/
def execOpInfIss (q : Nat) (faults : List WordFault) (s : State) : Host.Outcome State Fault Refusal :=
  .next (s.issue q 0x32 faults (s.issueTouch q) fun s v i => match i with
    | .infIss a b =>
      let at_ := descAddr v b
      match s.takeDesc q at_ with
      | .inl (cause, addr) => some (s.seqTrap q cause addr 0)
      | .inr raw =>
        if (s.sq q).spare < 40 then some (s.seqTrap q 6 0 0)
        else if s.opLimit q || (!s.infOpen.isEmpty && s.infChoice.isNone) then none
        else
          let t := s.issueTouch q v i
          let o : SeqOp := { id := 0, index := 0, cls := 2, counter := some a, scratch := at_ + 56, tokens := 40,
                             reads := s.keptSpans q t.reads, writes := s.keptSpans q t.writes }
          let (s, tag) := s.addOp q o
          let slot := s.slotOf q
          some ((s.giveInf { raw := raw, owner := .seq tag, caddy := slot }).seqNext q)
    | _ => none)

/-! ### Reducer operations (R684-R687) -/

/-- Bytes of an operand in scratch: 16 for type 6. -/
def operandBytes (type n : Nat) : Nat := elemBytes type * n

/-- What a RED touches. -/
def redTouch (v : View) (i : SInstr) : State.Touch :=
  match i with
  | .red b c type kind _ n _ =>
    let at_ := clearLow (v c) 3
    let target : Span := ⟨kind, (v b).toNat, redBytes type n⟩
    { ordered := true, scratch := [scr at_ (operandBytes type n)], reads := [target], writes := [target] }
  | _ => {}

namespace State

/-- REDs of the sequencer not acknowledged. -/
def redsOut (s : State) (q : Nat) : List SeqOp := (s.sq q).ops.filter fun o => o.cls == 3

/-- An ORDERED RED is unacknowledged (R687). -/
def orderedOut (s : State) (q : Nat) : Bool := (s.redsOut q).any fun o => match o.work with
  | .red _ _ _ _ _ _ ordered _ _ => ordered
  | _ => false

/-- Sends one reducer operation; a window target goes to another member at once (R819). -/
def sendRed (s : State) (q kind addr ast type n : Nat) (data : Bytes) (ordered : Bool) (job : Option Nat) : State :=
  let first := (s.redsOut q).isEmpty
  let target : Span := ⟨kind, addr, redBytes type n⟩
  let kept := if (s.sq q).debug then [target] else []
  let place := s.seqPlace q job kind addr
  let o : SeqOp := { id := 0, index := 0, cls := 3, tokens := 0, reads := kept, writes := kept,
                     work := .red kind addr ast type n data ordered job none }
  let (s, tag) := s.addOp q o
  let s := s.modSq q fun x => { x with redJob := none, inUse := if first then x.inUse + 4 else x.inUse }
  let s := match place with
    | .window w off =>
      match s.remoteAccess w off opReduce n type data (.red q tag.op) with
      | some s => s
      | none => s.setWork q tag.op (.red kind addr ast type n data ordered job (some false)) none
    | _ => s
  s.seqNext q

/-- The place of a kind 0 target: waits for, fails or has its translation with right A (R461). -/
def redXlat (s : State) (q addr ast : Nat) : State × XStatus × Option Nat :=
  match (s.sq q).redJob with
  | some id =>
    match s.xlat.jobs.get? id with
    | some j => if j.remark then (s.restartJob id, .waiting, some id) else (s, j.status, some id)
    | none => (s.modSq q fun x => { x with redJob := none }, .waiting, none)
  | none =>
    let j : XJob := { requester := 4, engine := 48, unit := seqUnit q, fn := s.seqFn q, ast := ast,
                      need := [⟨0, addr / 4096, 2, 0⟩] }
    let (s, id) := s.startJob j
    (s.modSq q fun x => { x with redJob := some id }, s.jobStatus id, some id)

/-- The checks of a RED that come before its waits: trap cause and address. -/
def redTrap (s : State) (q kind addr ast type n at_ : Nat) : Option (Nat × Nat) :=
  let astOk := match s.space? ast with
    | some x => x.fn == s.seqFn q
    | none => false
  if kind = 1 then some (9, addr)
  else if !redFits type n addr then some (9, addr)
  else if kind = 2 && s.seqPlace q none 2 addr = .outside then some (3, addr)
  else if kind = 0 && !astOk then some (3, addr)
  else if at_ + operandBytes type n > 0x10000 then some (3, at_)
  else if (s.sq q).badIn at_ (operandBytes type n) then some (2, at_)
  else none

end State

/-- R684-R687, R461, R594. -/
def execOpRed (q : Nat) (faults : List WordFault) (s : State) : Host.Outcome State Fault Refusal :=
  .next (s.issue q 0x33 faults redTouch fun s v i => match i with
    | .red b c type kind ordered n ast =>
      let addr := (v b).toNat
      let at_ := clearLow (v c) 3
      match s.redTrap q kind addr ast type n at_ with
      | some (cause, a) => some (s.seqTrap q cause a 0)
      | none =>
        let data := (s.sq q).look s.freeCtr at_ (operandBytes type n)
        let drop := fun (s : State) (id : Option Nat) => (s.dropJobs [id]).modSq q fun x => { x with redJob := none }
        let send := fun (s : State) (job : Option Nat) =>
          if ordered && s.orderedOut q then none
          else if (s.redsOut q).isEmpty && decide ((s.sq q).spare < 4) then some ((drop s job).seqTrap q 6 0 0)
          else if (s.redsOut q).length ≥ 64 || s.opLimit q then none
          else some (s.sendRed q kind addr ast type n data ordered job)
        if kind = 0 then
          match s.redXlat q addr ast with
          | (s, .waiting, _) => some s
          | (s, .failed _ _ _, id) => some ((drop s id).seqTrap q 3 addr 0)
          | (s, .ready, id) => send s id
        else send s none
    | _ => none)

/-! ### Grants and streams (R688-R692) -/

/-- R688. -/
def execOpGrant (q : Nat) (s : State) : Host.Outcome State Fault Refusal :=
  .next (s.issue q 0x34 [] noTouch fun s v i => match i with
    | .grant b =>
      let cs := (s.bindingOf q).clusters
      let asked := (List.range 64).filter fun j => bitOf (v b).toNat j
      let new_ := (asked.filterMap fun j => cs[j]?).filter fun c => (s.port c).grant.isNone
      some (if asked.any (fun j => decide (j ≥ cs.length)) then s.seqTrap q 3 0 0
        else if (s.sq q).spare < 2 * new_.length then s.seqTrap q 6 0 0
        else
          let s := s.modSq q fun x => { x with inUse := x.inUse + 2 * new_.length }
          let s := new_.foldl (fun s c => s.setPort c { s.port c with grant := some q }) s
          (s.sendStates new_).seqNext q)
    | _ => none)

namespace State

/-- Endpoint of STRM.BIND: none where the program does not own it (R689, R690). -/
def bindTarget (s : State) (q kind index engine : Nat) : Option Endpoint :=
  let b := s.bindingOf q
  match kind with
  | 0 => (b.chans[index]?).map Endpoint.pump
  | 1 => (b.seqs[index]?).map Endpoint.seq
  | _ =>
    let l := 64 * engine + index
    match s.boundTo (.gather l) 0 with
    | some (c, _) => if (s.port c).caddy == (s.sq q).caddy then some (.gather l) else none
    | none => some (.gather l)

/-- An outstanding operation of sequencer `q` uses an endpoint or a stream unit (H4). -/
def usesStream (s : State) (q c unit dir : Nat) (e : Option Endpoint) (o : SeqOp) : Bool :=
  let mine := fun (t : SeqTag) => t.seq == q && t.op == o.id
  let ends := e.toList ++ (s.endpointOf c unit dir).toList
  (match o.work with
    | .send c' u _ _ _ => dir == 0 && c' == c && u == unit
    | .recv c' u _ _ => dir == 1 && c' == c && u == unit
    | _ => false)
  || ends.any fun x => match x with
    | .pump k => (s.pchan k).descs.any fun d => match d.tag with
      | some t => mine t && (if dir = 0 then (parseDesc d.raw).isTx else (parseDesc d.raw).isRx)
      | none => false
    | .gather l => (s.lane l).jobs.any fun j => mine j.tag
    | .seq _ => false

end State

/-- R689, R690, R720. -/
def execOpStrmBind (q : Nat) (s : State) : Host.Outcome State Fault Refusal :=
  let touch := fun (_ : View) (i : SInstr) => match i with
    | .strmBind cluster unit dir kind index engine =>
      match (s.bindingOf q).clusters[cluster]? with
      | some c => ({ binding := s.usesStream q c unit dir (s.bindTarget q kind index engine) } : State.Touch)
      | none => {}
    | _ => {}
  .next (s.issue q 0x35 [] touch fun s _ i => match i with
    | .strmBind cluster unit dir kind index engine =>
      some (match (s.bindingOf q).clusters[cluster]?, s.bindTarget q kind index engine with
        | some c, some e => (s.bindEntry c unit dir e).seqNext q
        | _, _ => s.seqTrap q 3 0 0)
    | _ => none)

/-- What STRM.SEND and STRM.RECV touch in scratch. -/
def strmTouch (v : View) (i : SInstr) : State.Touch :=
  match i with
  | .strmSend _ b _ _ _ n => { scratch := [scr (descAddr v b) (64 * n)], reads := [scr (descAddr v b) (64 * n)] }
  | .strmRecv _ b _ _ n => { writes := [scr (descAddr v b) (64 * n)] }
  | _ => {}

namespace State

/-- The cluster of a slot whose stream unit is bound to sequencer `q` in a direction (R691). -/
def ownStream (s : State) (q cluster unit dir : Nat) : Option Nat :=
  match (s.bindingOf q).clusters[cluster]? with
  | some c => if s.endpointOf c unit dir = some (.seq q) then some c else none
  | none => none

end State

/-- R691, R692: the blocks are read at issue; unpaced ones go at once. -/
def execOpStrmSend (q : Nat) (faults : List WordFault) (s : State) : Host.Outcome State Fault Refusal :=
  .next (s.issue q 0x36 faults strmTouch fun s v i => match i with
    | .strmSend a b paced cluster unit n =>
      let at_ := descAddr v b
      match s.ownStream q cluster unit 0 with
      | none => some (s.seqTrap q 3 0 0)
      | some c =>
        if at_ + 64 * n > 0x10000 then some (s.seqTrap q 3 at_ 0)
        else if (s.sq q).badIn at_ (64 * n) then some (s.seqTrap q 2 at_ 0)
        else if s.opLimit q then none
        else
          let x := s.sq q
          let blocks := (List.range n).map fun j => x.look s.freeCtr (at_ + 64 * j) 64
          let o : SeqOp := { id := 0, index := 0, cls := 4, counter := some a, reads := [scr at_ (64 * n)],
                             work := .send c unit at_ (if paced then blocks else []) paced }
          let s := (s.addOp q o).1
          some ((if paced then s else s.sendHalves c unit (blocks.map fun d => (markData, d))).seqNext q)
    | _ => none)

/-- R691. -/
def execOpStrmRecv (q : Nat) (s : State) : Host.Outcome State Fault Refusal :=
  .next (s.issue q 0x37 [] strmTouch fun s v i => match i with
    | .strmRecv a b cluster unit n =>
      let at_ := descAddr v b
      match s.ownStream q cluster unit 1 with
      | none => some (s.seqTrap q 3 0 0)
      | some c =>
        if at_ + 64 * n > 0x10000 then some (s.seqTrap q 3 at_ 0)
        else if s.opLimit q then none
        else
          let o : SeqOp := { id := 0, index := 0, cls := 4, counter := some a, writes := [scr at_ (64 * n)],
                             work := .recv c unit at_ n }
          some (((s.addOp q o).1.feedRecv q c unit).seqNext q)
    | _ => none)

/-! ### Fences, tokens, signals -/

/-- R693. -/
def execOpFence (q : Nat) (s : State) : Host.Outcome State Fault Refusal :=
  .next (s.issue q 0x38 [] noTouch fun s _ i => match i with
    | .fence mask =>
      let ids := ((s.sq q).ops.filter fun o => bitOf mask o.cls).map (·.id)
      some (if ids.isEmpty then s.seqNext q else s.modSq q fun x => { x with wait := some (.fence ids) })
    | _ => none)

/-- The amount of a token instruction. -/
def tokens (v : View) (b imm : Nat) : Nat := ((v b).toNat + imm) % 2 ^ 64

/-- R641-R643, R694, R196. A request does not reach a power manager whose clock stands (R44). -/
def execOpTokAcq (q : Nat) (s : State) : Host.Outcome State Fault Refusal :=
  .next (s.issue q 0x40 [] noTouch fun s v i => match i with
    | .tokAcq b imm =>
      let n := tokens v b imm
      let x := s.sq q
      let envelope := match s.inf.caddies.get? (s.slotOf q) with | some c => c.envelope | none => 0
      if n != 0 && s.islandHalted islPmgr then none
      else some (if n = 0 then s.seqNext q
        else if s.heldBy x.program + n > envelope then s.seqTrap q 5 0 0
        else if s.heldTokens + n ≤ s.pool then (s.modSq q fun x => { x with held := x.held + n }).seqNext q
        else
          let first := !s.prog.waitReported.contains x.program
          let s := s.setSq q { x with wait := some (.token n), waitFrom := s.now }
          let s := { s with prog := { s.prog with
            queue := s.prog.queue ++ [⟨q, n⟩], tokenWaits := s.prog.tokenWaits + 1,
            waitReported := if first then x.program :: s.prog.waitReported else s.prog.waitReported } }
          if first then s.raise 0x0301 sevNotice (seqUnit q)
            [(32, x.program), (16, n), (16, s.pool), (16, s.heldTokens)] else s)
    | _ => none)

/-- R694, R695. -/
def execOpTokRel (q : Nat) (s : State) : Host.Outcome State Fault Refusal :=
  .next (s.issue q 0x41 [] noTouch fun s v i => match i with
    | .tokRel b imm =>
      let n := tokens v b imm
      some (if n > (s.sq q).spare then s.seqTrap q 6 0 0
        else (s.modSq q fun x => { x with held := x.held - n }).seqNext q)
    | _ => none)

/-- R638-R640, R696, R697, R729. -/
def execOpSigPost (q : Nat) (s : State) : Host.Outcome State Fault Refusal :=
  .next (s.issue q 0x48 [] noTouch fun s v i => match i with
    | .sigPost b index toCluster counter =>
      let value := (v b).toNat % 65536
      let bound := s.bindingOf q
      some (if toCluster then
          match bound.clusters[index]? with
          | none => s.seqTrap q 7 0 0
          | some c => if value = 0 then s.seqNext q
              else (s.sendCtrl c (toLE 1 1 ++ toLE 1 (s.sq q).rank ++ toLE 1 counter ++ toLE 1 0 ++ toLE 2 value)).seqNext q
        else
          match bound.seqs[index]? with
          | none => s.seqTrap q 7 0 0
          | some d => if value = 0 then s.seqNext q
              else State.seqNext { s with prog := { s.prog with posts := s.prog.posts ++ [⟨q, d, counter, value⟩] } } q)
    | _ => none)

/-- R638, R697. -/
def execOpSigWait (q : Nat) (s : State) : Host.Outcome State Fault Refusal :=
  .next (s.issue q 0x49 [] noTouch fun s _ i => match i with
    | .sigWait j v => some (if v = 0 then s.seqNext q
        else (s.modSq q fun x => { x with wait := some (.signal j v) }).wakeSignal q)
    | _ => none)

/-- R706. -/
def execOpSigRead (q : Nat) (s : State) : Host.Outcome State Fault Refusal :=
  .next (s.issue q 0x4A [] noTouch fun s _ i => match i with
    | .sigRead a j => some (s.seqResult q a (zext 16 ((s.sq q).counters.get 0 j)) i.latency)
    | _ => none)

/-! ### Slots and time -/

/-- R636. -/
def execOpSlotWait (q : Nat) (s : State) : Host.Outcome State Fault Refusal :=
  .next (s.issue q 0x50 [] noTouch fun s v i => match i with
    | .slotWait b imm =>
      let k := tokens v b imm
      let x := s.sq q
      some (if k ≤ x.slots then s.setSq q { x.next with late := x.late + 1 }
        else s.setSq q { x with wait := some (.slot k) })
    | _ => none)

/-- R698, R635; a paced send is an operation the slot length concerns (H4). -/
def execOpSlotLen (q : Nat) (s : State) : Host.Outcome State Fault Refusal :=
  let paced := fun (o : SeqOp) => match o.work with
    | .send _ _ _ _ p => p
    | _ => false
  .next (s.issue q 0x51 [] (fun _ _ => { binding := paced }) fun s v i => match i with
    | .slotLen b imm => some ((s.modSq q fun x => { x with nextLen := max 16 (min (2 ^ 24) (tokens v b imm)) }).seqNext q)
    | _ => none)

/-- R706. -/
def execOpSlotGet (q : Nat) (s : State) : Host.Outcome State Fault Refusal :=
  .next (s.issue q 0x52 [] noTouch fun s _ i => match i with
    | .slotGet a => some (s.seqResult q a (BitVec.ofNat 64 (s.sq q).slots) i.latency)
    | _ => none)

/-- R699. -/
def execOpTimeGet (q : Nat) (s : State) : Host.Outcome State Fault Refusal :=
  .next (s.issue q 0x53 [] noTouch fun s _ i => match i with
    | .timeGet a => some (s.seqResult q a (BitVec.ofNat 64 (s.follower q)) i.latency)
    | _ => none)

/-- Table 15-6. -/
def csr (x : Sequencer) (id : Nat) : Nat :=
  match id with
  | 0 => x.held
  | 1 => x.inUse
  | 2 => x.late
  | 3 => x.ops.length
  | 4 => x.slotLen
  | _ => 0

/-- R706, Table 15-6. -/
def execOpCsrRd (q : Nat) (s : State) : Host.Outcome State Fault Refusal :=
  .next (s.issue q 0x54 [] noTouch fun s _ i => match i with
    | .csrRd a id => some (s.seqResult q a (BitVec.ofNat 64 (csr (s.sq q) id)) i.latency)
    | _ => none)

/-! ### Debug (R700, R701) -/

/-- R700: the slice's TBASE in the low 8 bytes of the mark. -/
def execOpDbgMark (q : Nat) (s : State) : Host.Outcome State Fault Refusal :=
  let touch := fun (v : View) (i : SInstr) => match i with
    | .dbgMark b _ => ({ writes := [scr (clearLow (v b) 4) 16] } : State.Touch)
    | _ => {}
  .next (s.issue q 0x60 [] touch fun s v i => match i with
    | .dbgMark b imm =>
      let at_ := clearLow (v b) 4
      let x := s.sq q
      some (if !x.debug then s.seqNext q
        else if at_ > 0xFFFF then s.seqTrap q 3 at_ 0
        else s.setSq q (x.write at_ (toLE 8 (s.follower q) ++ toLE 8 (x.pc + 65536 * imm))).next)
    | _ => none)

/-- R701. -/
def execOpDbgStop (q : Nat) (s : State) : Host.Outcome State Fault Refusal :=
  .next (s.issue q 0x61 [] noTouch fun s _ _ =>
    let x := s.sq q
    some (if x.debug then s.setSq q { x with state := .stopped, held := x.inUse } else s.seqNext q))

/-- R665: a word that is no instruction traps when it reaches issue. -/
def execInvalidInstructionWord (q : Nat) (s : State) : Host.Outcome State Fault Refusal :=
  .next (if s.mayIssue q && (decodeSeq (s.wordAt q)).isNone then s.trapSeq q (s.sq q).pc { cause := 1 } else s)

end Sys2Proof.Machine
end

