-- ==== Sys2Proof/Machine/Dispatch.lean ====
section
/-! DEFINITION. One arm per command of the table: each calls its meaning. -/

namespace Sys2Proof.Machine

/-- The effect of a command on everything but the queue (R79 and each row's own rule). -/
def exec (i : Instr) (s : State) : Host.Outcome State Fault Refusal :=
  match i with
  | .pwrOkAssert => Sys2Proof.Machine.execPwrOkAssert s
  | .pwrOkDeassert => Sys2Proof.Machine.execPwrOkDeassert s
  | .coldRstNAssert ns => Sys2Proof.Machine.execColdRstNAssert ns s
  | .coldRstNRelease => Sys2Proof.Machine.execColdRstNRelease s
  | .perstNAssert ns => Sys2Proof.Machine.execPerstNAssert ns s
  | .perstNRelease => Sys2Proof.Machine.execPerstNRelease s
  | .wardenDpllLock => Sys2Proof.Machine.execWardenDpllLock s
  | .bootStepEnd r => Sys2Proof.Machine.execBootStepEnd r s
  | .configRequest f c => Sys2Proof.Machine.execConfigRequest f c s
  | .kymCqDbWrite f q v => Sys2Proof.Machine.execKymCqDbWrite f q v s
  | .kymRqDbWrite f q v => Sys2Proof.Machine.execKymRqDbWrite f q v s
  | .kymUrgDbWrite f v => Sys2Proof.Machine.execKymUrgDbWrite f v s
  | .aqEnable f => Sys2Proof.Machine.execAqEnable f s
  | .aqDisable f => Sys2Proof.Machine.execAqDisable f s
  | .wardenCtrlRestart f v => Sys2Proof.Machine.execWardenCtrlRestart f v s
  | .wardenControlMessage restart => Sys2Proof.Machine.execWardenControlMessage restart s
  | .wardenRestartComplete bankOk => Sys2Proof.Machine.execWardenRestartComplete bankOk s
  | .lockstepMismatch => Sys2Proof.Machine.execLockstepMismatch s
  | .sidebandKymalRequest entry inl answers => Sys2Proof.Machine.execSidebandKymalRequest entry inl answers s
  | .intakeTake entry ext fenced answers => Sys2Proof.Machine.execIntakeTake entry ext fenced answers s
  | .deferredFinalReply p seq answers => Sys2Proof.Machine.execDeferredFinalReply p seq answers s
  | .queueAccessError e => Sys2Proof.Machine.execQueueAccessError e s
  | .leaseBreakEffect ref => Sys2Proof.Machine.execLeaseBreakEffect ref s
  | .fwActivateSwap bankOk pause => Sys2Proof.Machine.execFwActivateSwap bankOk pause s
  | .hello k => Sys2Proof.Machine.execHello k s
  | .queueCreate k => Sys2Proof.Machine.execQueueCreate k s
  | .queueDelete k => Sys2Proof.Machine.execQueueDelete k s
  | .queueReset k => Sys2Proof.Machine.execQueueReset k s
  | .leaseAcquire k => Sys2Proof.Machine.execLeaseAcquire k s
  | .leaseRelease k => Sys2Proof.Machine.execLeaseRelease k s
  | .leaseBreak k => Sys2Proof.Machine.execLeaseBreak k s
  | .resourceAssign k => Sys2Proof.Machine.execResourceAssign k s
  | .orderArm k => Sys2Proof.Machine.execOrderArm k s
  | .orderClear k => Sys2Proof.Machine.execOrderClear k s
  | .orderQuery k => Sys2Proof.Machine.execOrderQuery k s
  | .eventqConfig k => Sys2Proof.Machine.execEventqConfig k s
  | .logRead k => Sys2Proof.Machine.execLogRead k s
  | .countersRead k => Sys2Proof.Machine.execCountersRead k s
  | .polderCreate k => Sys2Proof.Machine.execPolderCreate k s
  | .polderFree k => Sys2Proof.Machine.execPolderFree k s
  | .polderResize k => Sys2Proof.Machine.execPolderResize k s
  | .polderRestrength k => Sys2Proof.Machine.execPolderRestrength k s
  | .polderRekey k => Sys2Proof.Machine.execPolderRekey k s
  | .polderSetSluice k => Sys2Proof.Machine.execPolderSetSluice k s
  | .sluiceConfig k => Sys2Proof.Machine.execSluiceConfig k s
  | .basinPartition k => Sys2Proof.Machine.execBasinPartition k s
  | .basinQuota k => Sys2Proof.Machine.execBasinQuota k s
  | .basinFlush k => Sys2Proof.Machine.execBasinFlush k s
  | .spaceCreate k => Sys2Proof.Machine.execSpaceCreate k s
  | .spaceDestroy k => Sys2Proof.Machine.execSpaceDestroy k s
  | .translateFill k => Sys2Proof.Machine.execTranslateFill k s
  | .invalRange k => Sys2Proof.Machine.execInvalRange k s
  | .invalTag k => Sys2Proof.Machine.execInvalTag k s
  | .apertureMap k => Sys2Proof.Machine.execApertureMap k s
  | .apertureUnmap k => Sys2Proof.Machine.execApertureUnmap k s
  | .accessCountSet k => Sys2Proof.Machine.execAccessCountSet k s
  | .channelOpen k => Sys2Proof.Machine.execChannelOpen k s
  | .channelClose k => Sys2Proof.Machine.execChannelClose k s
  | .channelResume k => Sys2Proof.Machine.execChannelResume k s
  | .caddyStage k => Sys2Proof.Machine.execCaddyStage k s
  | .caddyInfuse k => Sys2Proof.Machine.execCaddyInfuse k s
  | .caddyBind k => Sys2Proof.Machine.execCaddyBind k s
  | .caddyUnbind k => Sys2Proof.Machine.execCaddyUnbind k s
  | .caddyEvict k => Sys2Proof.Machine.execCaddyEvict k s
  | .programStart k => Sys2Proof.Machine.execProgramStart k s
  | .programStop k => Sys2Proof.Machine.execProgramStop k s
  | .contextMove k => Sys2Proof.Machine.execContextMove k s
  | .clusterBind k => Sys2Proof.Machine.execClusterBind k s
  | .clusterUnbind k => Sys2Proof.Machine.execClusterUnbind k s
  | .powerQuery k => Sys2Proof.Machine.execPowerQuery k s
  | .islandClockSet k => Sys2Proof.Machine.execIslandClockSet k s
  | .portTrain k => Sys2Proof.Machine.execPortTrain k s
  | .portQualify k => Sys2Proof.Machine.execPortQualify k s
  | .portMargin k => Sys2Proof.Machine.execPortMargin k s
  | .trunkConfig k => Sys2Proof.Machine.execTrunkConfig k s
  | .windowSet k => Sys2Proof.Machine.execWindowSet k s
  | .cohortConfig k => Sys2Proof.Machine.execCohortConfig k s
  | .cohortEpoch k => Sys2Proof.Machine.execCohortEpoch k s
  | .timeLeaderSet k => Sys2Proof.Machine.execTimeLeaderSet k s
  | .patrolConfig k => Sys2Proof.Machine.execPatrolConfig k s
  | .remapSchedule k => Sys2Proof.Machine.execRemapSchedule k s
  | .healthRead k => Sys2Proof.Machine.execHealthRead k s
  | .unitQuery k => Sys2Proof.Machine.execUnitQuery k s
  | .unitDrain k => Sys2Proof.Machine.execUnitDrain k s
  | .unitReturn k => Sys2Proof.Machine.execUnitReturn k s
  | .serviceEnter k => Sys2Proof.Machine.execServiceEnter k s
  | .fwStage k => Sys2Proof.Machine.execFwStage k s
  | .fwActivate k => Sys2Proof.Machine.execFwActivate k s
  | .testRun k => Sys2Proof.Machine.execTestRun k s
  | .testResult k => Sys2Proof.Machine.execTestResult k s
  | .keyGenerate k => Sys2Proof.Machine.execKeyGenerate k s
  | .keyDestroy k => Sys2Proof.Machine.execKeyDestroy k s
  | .debugChallenge k => Sys2Proof.Machine.execDebugChallenge k s
  | .debugUnlock k => Sys2Proof.Machine.execDebugUnlock k s
  | .nonceExpiry => Sys2Proof.Machine.execNonceExpiry s
  | .eventCollect code severity unit detail => Sys2Proof.Machine.execEventCollect code severity unit detail s
  | .eventRoute => Sys2Proof.Machine.execEventRoute s
  | .spillwayWrite f => Sys2Proof.Machine.execSpillwayWrite f s
  | .faultNExpiry => Sys2Proof.Machine.execFaultNExpiry s
  | .evqHeadWrite f v => Sys2Proof.Machine.execEvqHeadWrite f v s
  | .msixVectorUnmask f w => Sys2Proof.Machine.execMsixVectorUnmask f w s
  | .timeLoRead f => Sys2Proof.Machine.execTimeLoRead f s
  | .timeHiRead f => Sys2Proof.Machine.execTimeHiRead f s
  | .timeRead8b f => Sys2Proof.Machine.execTimeRead8b f s
  | .sbrBlockWrite offset data => Sys2Proof.Machine.execSbrBlockWrite offset data s
  | .sbrBlockRead => Sys2Proof.Machine.execSbrBlockRead s
  | .smbusArp addr => Sys2Proof.Machine.execSmbusArp addr s
  | .registerWrite f offset data => Sys2Proof.Machine.execRegisterWrite f offset data s
  | .jtagSbrAccess offset => Sys2Proof.Machine.execJtagSbrAccess offset s
  | .jtagTestrun test u => Sys2Proof.Machine.execJtagTestrun test u s
  | .bondExtest => Sys2Proof.Machine.execBondExtest s
  | .jtagBoundaryScan j => Sys2Proof.Machine.execJtagBoundaryScan j s
  | .tbaseBroadcast => Sys2Proof.Machine.execTbaseBroadcast s
  | .islandDpllLockLoss j => Sys2Proof.Machine.execIslandDpllLockLoss j s
  | .islandDpllRelock j => Sys2Proof.Machine.execIslandDpllRelock j s
  | .dpllLockTimeout j => Sys2Proof.Machine.execDpllLockTimeout j s
  | .controlLoop r => Sys2Proof.Machine.execControlLoop r s
  | .stackSensorReadout stack temps => Sys2Proof.Machine.execStackSensorReadout stack temps s
  | .boardTempRead b tj divisor => Sys2Proof.Machine.execBoardTempRead b tj divisor s
  | .refresh n => Sys2Proof.Machine.execRefresh n s
  | .thermTrip k => Sys2Proof.Machine.execThermTrip k s
  | .phaseOvercurrent phase => Sys2Proof.Machine.execPhaseOvercurrent phase s
  | .psbIdentity d body crc => Sys2Proof.Machine.execPsbIdentity d body crc s
  | .dieHandshakeTimeout d => Sys2Proof.Machine.execDieHandshakeTimeout d s
  | .psbClusterPower d body crc => Sys2Proof.Machine.execPsbClusterPower d body crc s
  | .psbSensors d body crc => Sys2Proof.Machine.execPsbSensors d body crc s
  | .psbGrants d body crc => Sys2Proof.Machine.execPsbGrants d body crc s
  | .dthermNAssert d level => Sys2Proof.Machine.execDthermNAssert d level s
  | .narrowRead dpa faults => Sys2Proof.Machine.execNarrowRead dpa faults s
  | .fullRead page faults => Sys2Proof.Machine.execFullRead page faults s
  | .mergeWrite dpa data poisoned => Sys2Proof.Machine.execMergeWrite dpa data poisoned s
  | .fullPageWrite page data => Sys2Proof.Machine.execFullPageWrite page data s
  | .mergeCommit n page => Sys2Proof.Machine.execMergeCommit n page s
  | .boardAccessCrcFail b write page retries => Sys2Proof.Machine.execBoardAccessCrcFail b write page retries s
  | .patrolPage n faults => Sys2Proof.Machine.execPatrolPage n faults s
  | .liveRowRemap n bank row => Sys2Proof.Machine.execLiveRowRemap n bank row s
  | .stackReadoutSilent stack => Sys2Proof.Machine.execStackReadoutSilent stack s
  | .stackFailure stack cause channel wire group => Sys2Proof.Machine.execStackFailure stack cause channel wire group s
  | .sluiceRedivision waiting => Sys2Proof.Machine.execSluiceRedivision waiting s
  | .basinAccess r => Sys2Proof.Machine.execBasinAccess r s
  | .lineFill who dpa => Sys2Proof.Machine.execLineFill who dpa s
  | .reducerOperation r => Sys2Proof.Machine.execReducerOperation r s
  | .pumpDbWrite f e c v => Sys2Proof.Machine.execPumpDbWrite f e c v s
  | .pumpReadAhead e c entry => Sys2Proof.Machine.execPumpReadAhead e c entry s
  | .pumpDispatch e c => Sys2Proof.Machine.execPumpDispatch e c s
  | .hostReadCompletion e c index tile data => Sys2Proof.Machine.execHostReadCompletion e c index tile data s
  | .descriptorComplete e c index => Sys2Proof.Machine.execDescriptorComplete e c index s
  | .atsCompletion ast page r => Sys2Proof.Machine.execAtsCompletion ast page r s
  | .prgResponse f group code => Sys2Proof.Machine.execPrgResponse f group code s
  | .atsInvalidateRequest f tag pasid page count => Sys2Proof.Machine.execAtsInvalidateRequest f tag pasid page count s
  | .engineInvalAck j => Sys2Proof.Machine.execEngineInvalAck j s
  | .accessCountWindow => Sys2Proof.Machine.execAccessCountWindow s
  | .atsEnableClear f => Sys2Proof.Machine.execAtsEnableClear f s
  | .priEnableClear f => Sys2Proof.Machine.execPriEnableClear f s
  | .infuserJobStart u host => Sys2Proof.Machine.execInfuserJobStart u host s
  | .infuserJobComplete u => Sys2Proof.Machine.execInfuserJobComplete u s
  | .gatherJobAccept e lane scores => Sys2Proof.Machine.execGatherJobAccept e lane scores s
  | .gatherSlotRelease e lane => Sys2Proof.Machine.execGatherSlotRelease e lane s
  | .gatherSlotDeliver e lane host => Sys2Proof.Machine.execGatherSlotDeliver e lane host s
  | .gatherJobComplete e lane => Sys2Proof.Machine.execGatherJobComplete e lane s
  | .programStartTime q => Sys2Proof.Machine.execProgramStartTime q s
  | .slotBoundary q => Sys2Proof.Machine.execSlotBoundary q s
  | .tokenGrant => Sys2Proof.Machine.execTokenGrant s
  | .seqLoadReturn q faults => Sys2Proof.Machine.execSeqLoadReturn q faults s
  | .operationCompletion q op => Sys2Proof.Machine.execOperationCompletion q op s
  | .redAckReceived q op => Sys2Proof.Machine.execRedAckReceived q op s
  | .signalArrival src dst => Sys2Proof.Machine.execSignalArrival src dst s
  | .fenceComplete q => Sys2Proof.Machine.execFenceComplete q s
  | .endComplete q => Sys2Proof.Machine.execEndComplete q s
  | .opNop q => Sys2Proof.Machine.execOpNop q s
  | .opJal q => Sys2Proof.Machine.execOpJal q s
  | .opJalr q => Sys2Proof.Machine.execOpJalr q s
  | .opBr q => Sys2Proof.Machine.execOpBr q s
  | .opBri q => Sys2Proof.Machine.execOpBri q s
  | .opSel q => Sys2Proof.Machine.execOpSel q s
  | .opEnd q => Sys2Proof.Machine.execOpEnd q s
  | .opAlu q => Sys2Proof.Machine.execOpAlu q s
  | .opAlui q => Sys2Proof.Machine.execOpAlui q s
  | .opLi q => Sys2Proof.Machine.execOpLi q s
  | .opLih q => Sys2Proof.Machine.execOpLih q s
  | .opLds q faults => Sys2Proof.Machine.execOpLds q faults s
  | .opSts q faults => Sys2Proof.Machine.execOpSts q faults s
  | .opLd q => Sys2Proof.Machine.execOpLd q s
  | .opSt q => Sys2Proof.Machine.execOpSt q s
  | .opLdPair q => Sys2Proof.Machine.execOpLdPair q s
  | .opStPair q => Sys2Proof.Machine.execOpStPair q s
  | .opPref q => Sys2Proof.Machine.execOpPref q s
  | .opPumpIss q faults => Sys2Proof.Machine.execOpPumpIss q faults s
  | .opGathIss q faults => Sys2Proof.Machine.execOpGathIss q faults s
  | .opInfIss q faults => Sys2Proof.Machine.execOpInfIss q faults s
  | .opRed q faults => Sys2Proof.Machine.execOpRed q faults s
  | .opGrant q => Sys2Proof.Machine.execOpGrant q s
  | .opStrmBind q => Sys2Proof.Machine.execOpStrmBind q s
  | .opStrmSend q faults => Sys2Proof.Machine.execOpStrmSend q faults s
  | .opStrmRecv q => Sys2Proof.Machine.execOpStrmRecv q s
  | .opFence q => Sys2Proof.Machine.execOpFence q s
  | .opTokAcq q => Sys2Proof.Machine.execOpTokAcq q s
  | .opTokRel q => Sys2Proof.Machine.execOpTokRel q s
  | .opSigPost q => Sys2Proof.Machine.execOpSigPost q s
  | .opSigWait q => Sys2Proof.Machine.execOpSigWait q s
  | .opSigRead q => Sys2Proof.Machine.execOpSigRead q s
  | .opSlotWait q => Sys2Proof.Machine.execOpSlotWait q s
  | .opSlotLen q => Sys2Proof.Machine.execOpSlotLen q s
  | .opSlotGet q => Sys2Proof.Machine.execOpSlotGet q s
  | .opTimeGet q => Sys2Proof.Machine.execOpTimeGet q s
  | .opCsrRd q => Sys2Proof.Machine.execOpCsrRd q s
  | .opDbgMark q => Sys2Proof.Machine.execOpDbgMark q s
  | .opDbgStop q => Sys2Proof.Machine.execOpDbgStop q s
  | .d2dGroupReceived c a => Sys2Proof.Machine.execD2dGroupReceived c a s
  | .apertureRequest c tag faults => Sys2Proof.Machine.execApertureRequest c tag faults s
  | .apertureResponse c tag => Sys2Proof.Machine.execApertureResponse c tag s
  | .signalMessage c rank => Sys2Proof.Machine.execSignalMessage c rank s
  | .trapMessage c => Sys2Proof.Machine.execTrapMessage c s
  | .creditsMessage c => Sys2Proof.Machine.execCreditsMessage c s
  | .fetchRequest c frame wire faults => Sys2Proof.Machine.execFetchRequest c frame wire faults s
  | .flitReceived p line => Sys2Proof.Machine.execFlitReceived p line s
  | .tagFlitReceived p line next => Sys2Proof.Machine.execTagFlitReceived p line next s
  | .linkFlitReceived p line => Sys2Proof.Machine.execLinkFlitReceived p line s
  | .replayTimeout p => Sys2Proof.Machine.execReplayTimeout p s
  | .partnerSilent p => Sys2Proof.Machine.execPartnerSilent p s
  | .linkRefclkLost q => Sys2Proof.Machine.execLinkRefclkLost q s
  | .linkRetrainEnd p ok => Sys2Proof.Machine.execLinkRetrainEnd p ok s
  | .trainingFrame p f => Sys2Proof.Machine.execTrainingFrame p f s
  | .identifyExchange p chain partner => Sys2Proof.Machine.execIdentifyExchange p chain partner s
  | .manifestMessage p => Sys2Proof.Machine.execManifestMessage p s
  | .qualifyCheckerLock p lane => Sys2Proof.Machine.execQualifyCheckerLock p lane s
  | .qualifyEnd p errors => Sys2Proof.Machine.execQualifyEnd p errors s
  | .marginScanEnd p lane m => Sys2Proof.Machine.execMarginScanEnd p lane m s
  | .remoteRequest p faults => Sys2Proof.Machine.execRemoteRequest p faults s
  | .remoteCompletion p => Sys2Proof.Machine.execRemoteCompletion p s
  | .timeRequestSend p => Sys2Proof.Machine.execTimeRequestSend p s
  | .timeMessage p => Sys2Proof.Machine.execTimeMessage p s
  | .cohortSyncPulse => Sys2Proof.Machine.execCohortSyncPulse s
  | .cohortSyncEdge => Sys2Proof.Machine.execCohortSyncEdge s
  | .cohortSyncTimeout => Sys2Proof.Machine.execCohortSyncTimeout s
  | .bar2Access f r => Sys2Proof.Machine.execBar2Access f r s
  | .bar2MapWrite f n w => Sys2Proof.Machine.execBar2MapWrite f n w s
  | .functionLevelReset f => Sys2Proof.Machine.execFunctionLevelReset f s
  | .vfEnable k => Sys2Proof.Machine.execVfEnable k s
  | .vfDisable k => Sys2Proof.Machine.execVfDisable k s
  | .ideMacFailure j => Sys2Proof.Machine.execIdeMacFailure j s
  | .spdmRequest version r => Sys2Proof.Machine.execSpdmRequest version r s
  | .ideKmKeyProg p => Sys2Proof.Machine.execIdeKmKeyProg p s
  | .glitchDetect detectors testsOk => Sys2Proof.Machine.execGlitchDetect detectors testsOk s
  | .entropyHealthFail passes => Sys2Proof.Machine.execEntropyHealthFail passes s
  | .stripeMove n faults => Sys2Proof.Machine.execStripeMove n faults s
  | .drainEnd u => Sys2Proof.Machine.execDrainEnd u s
  | .conversionPage polder => Sys2Proof.Machine.execConversionPage polder s
  | .testComplete u o => Sys2Proof.Machine.execTestComplete u o s
  | .completionTimeout t => Sys2Proof.Machine.execCompletionTimeout t s
  | .blockLockLost p lane => Sys2Proof.Machine.execBlockLockLost p lane s
  | .stuffDebtOverflow p lane frames => Sys2Proof.Machine.execStuffDebtOverflow p lane frames s
  | .vinIvrUndervoltage mv => Sys2Proof.Machine.execVinIvrUndervoltage mv s
  | .patrolRateWindow n => Sys2Proof.Machine.execPatrolRateWindow n s
  | .trstNAssert => Sys2Proof.Machine.execTrstNAssert s
  | .invalidInstructionWord q => Sys2Proof.Machine.execInvalidInstructionWord q s

end Sys2Proof.Machine
end

