-- ==== Sys2Proof/Machine/Ops.lean ====
section
/-! DEFINITION. What happens while no command waits: what waited inside the block arrives or takes its turn, and else the
warden clock ticks (DESIGN CHOICE, log entry 1). -/

namespace Sys2Proof.Machine

/-- 1 ns in the unit of the rate correction's remainder: 0.01 ppm of a nanosecond (R832). -/
def steerUnit : Int := 100000000

/-- Nanoseconds TBASE moves at one tick, and the remainder the rate correction leaves (R45, R832). -/
def tickStep (correction residue : Int) : Nat × Int :=
  let r := residue + correction
  if r ≥ steerUnit then (2, r - steerUnit) else if r ≤ -steerUnit then (0, r + steerUnit) else (1, r)

/-- One tick: TBASE counts while the warden DPLL is locked and the warden island's clock runs (R45, R55, R832). -/
def State.tick (s : State) : State :=
  if !s.clk.wardenLocked || s.islandHalted islWarden then s
  else
    let d := tickStep s.cohort.correction s.cohort.residue
    { s with clk := { s.clk with tbase := s.clk.tbase + BitVec.ofNat 64 d.1 }
             cohort := { s.cohort with residue := d.2 } }

/-! ### What waited inside the block (R43, R44, R298) -/

/-- Rows on a crossing, oldest first. -/
def Crossing.rows (x : Crossing) : List Instr := x.fifo ++ x.sender

/-- A crossing with these rows: four in the FIFO, the rest held back in their senders (R43, R44). -/
def Crossing.ofRows (rows : List Instr) : Crossing := { fifo := rows.take 4, sender := rows.drop 4 }

namespace State

/-- The rows on the crossings into an island; an empty list unlists it. -/
def setCrossing (s : State) (i : Nat) (rows : List Instr) : State :=
  { s with clk := { s.clk with crossings :=
      if rows.isEmpty then s.clk.crossings.erase i else s.clk.crossings.set i (Crossing.ofRows rows) } }

/-- A transfer that an island whose clock runs takes from a crossing: the lowest such island, and its oldest transfer. -/
def nextCrossing (s : State) : Option (Nat × Instr × List Instr) :=
  (s.clk.crossings.find? fun i x => !s.islandHalted i && !x.rows.isEmpty).bind fun c =>
    match c.2.rows with
    | row :: rest => some (c.1, row, rest)
    | [] => none

/-- The channel whose waiting requests come next, and the request it serves. -/
def nextServed (s : State) : Option (Nat × Instr × Option Nat) :=
  (s.mem.channels.keys.find? fun n => (s.nextRequest n).isSome).bind fun n => (s.nextRequest n).map fun r => (n, r)

/-- The state in which an arriving row runs: what waits beside it stands aside, so that the row does not queue behind it. -/
def forArrival (s : State) : Option (Instr × State) :=
  match s.nextCrossing with
  | some (i, row, _) => some (row, s.setCrossing i [])
  | none =>
    match s.nextServed with
    | some (n, row, q) =>
      let c := s.chan n
      some (row, s.setChan n { c with waiting := [], turn := q.or c.turn })
    | none => none

/-- A pump engine one of whose channels waited and can move 64 bytes now. -/
def engineWaiting (s : State) : Option Nat := (List.range 32).find? fun e => (s.nextTurn e).isSome

/-- Nothing waits at an island's border or at a memory channel: an engine takes its turns, or a tick passes. -/
def betweenRows (s : State) : State :=
  match s.engineWaiting with
  | some e => s.serveEngine e
  | none => s.tick

/-- What stood aside takes its place again, ahead of what the row itself sent there. -/
def afterArrival (s t : State) : State :=
  match s.nextCrossing with
  | some (i, _, rest) => t.setCrossing i (rest ++ (t.clk.crossings.get {} i).rows)
  | none =>
    match s.nextServed with
    | some (n, row, _) =>
      let d := t.chan n
      t.setChan n { d with waiting := (s.chan n).waiting.erase row ++ d.waiting }
    | none => t

end State

end Sys2Proof.Machine
end

