-- ==== Sys2Proof/Machine/Step.lean ====
section
/-! DEFINITION. One step: the command at the front of the queue; while none waits, what waited inside the block, or a tick of
the warden clock. -/

namespace Sys2Proof.Machine

/-- With an empty queue, a transfer that waited on a crossing arrives (R44), or else a request that waited at its memory
channel is served (R298), or else a pump engine takes the turns it waited for (R479), or else one tick of the warden clock passes
(DESIGN CHOICE, log entry 1). -/
def idle (s : State) : Host.Outcome State Fault Refusal :=
  match s.forArrival with
  | none => .next s.betweenRows
  | some (row, s') =>
    match exec row s' with
    | .next t => .next (s.afterArrival t)
    | .fault f => .fault f
    | .refused r => .refused r

/-- Takes the command at the front and runs it on the state with the queue's rest. -/
def step (s : State) : Host.Outcome State Fault Refusal :=
  match s.pending with
  | [] => idle s
  | c :: rest => exec c { s with pending := rest }

/-- The command a word spells is put at the front of the queue; no row of the table has bits, so the state is unchanged. -/
def State.withFetchWord (s : State) (nbits w : Nat) : State :=
  match decodeTableWord nbits w with
  | some c => { s with pending := c :: s.pending }
  | none => s

end Sys2Proof.Machine
end

