-- ==== Sys2Proof/WellFormed.lean ====
section
/-! DEFINITION. Which commands are well formed: every operand within the range of what it names. -/

namespace Sys2Proof

/-- Number of units of each class (Table 1-4); 0 for a class the table does not list (R18). -/
def unitCount (cls : Nat) : Nat :=
  match cls with
  | 0x01 => 64 | 0x02 => 8 | 0x03 => 128 | 0x04 => 12 | 0x05 => 48 | 0x06 => 256 | 0x07 => 4 | 0x08 => 32
  | 0x09 => 8 | 0x0A => 8 | 0x0B => 64 | 0x0C => 140 | 0x0D => 256 | 0x0E => 128 | 0x0F => 1 | 0x10 => 1
  | 0x11 => 1 | 0x12 => 1 | 0x13 => 1 | _ => 0

/-- A unit identifier of Table 1-4 (R16, R21, R22). -/
def unitWf (u : Nat) : Bool := decide (u < 0x10000) && decide (u % 0x400 < unitCount (u / 0x400))

/-- Functions 0-127 with four queue pairs each, and the sideband (R64). -/
def Path.wf : Path → Bool
  | .queue f q => decide (f < 128) && decide (q < 4)
  | .urgent f => decide (f < 128)
  | .sideband => true

/-- A command entry holds 112 payload bytes (Table 3-1). -/
def KCmd.wf (k : KCmd) : Bool := k.path.wf && decide (k.payload.length = 112)

def QueueFault.wf (e : QueueFault) : Bool :=
  e.path.wf && decide (e.addr < 2 ^ 64) && match e.taken with
    | some (op, k) => decide (op < 0x10000) && k.wf
    | none => true

def WordFault.wf (w : WordFault) : Bool := decide (w.word < 8192)

/-- Codeword positions of a page: 2,048 data, 128 CRC, up to 128 parity symbols (Table 9-1). -/
def positionsWf (l : List Nat) : Bool := l.all fun p => decide (p < 2304)

def PageFault.wf (x : PageFault) : Bool := positionsWf x.errs

def RedSource.wf : RedSource → Bool
  | .aperture c tag => decide (c < 256) && decide (tag < 256)
  | .seq q _ => decide (q < 64)
  | .window port tag src => decide (port < 48) && decide (tag < 0x10000) && decide (src < 0x10000)

def Timeout.wf : Timeout → Bool
  | .ats ast _ => decide (ast < 4096)
  | .read e c _ _ => decide (e < 32) && decide (c < 16)

/-- A group of 128 data bytes with its sideband below the CRC (R708, Table 16-2). -/
def D2dArrival.wf : D2dArrival → Bool
  | .group data side crc wire => decide (data.length = 128) && decide (side.length = 6) && decide (crc < 65536) && decide (wire < 512)
  | .lost path wire seq => decide (path < 4) && decide (wire < 512) && decide (seq < 128)

/-- The lines of a port's four lanes, or nothing: levels 0-3 (R755). -/
def linesWf (l : List (List Nat)) : Bool := decide (l.length = 0 ∨ l.length = 4) && l.all fun x => x.all fun v => decide (v < 4)

def LinkLane.wf (x : LinkLane) : Bool := decide (x.reg < 2 ^ 58) && decide (x.level < 4) && decide (x.run < 32)

def TrainFrame.wf (f : TrainFrame) : Bool :=
  decide (f.lane < 4) && decide (f.bytes.length = 10) && decide (f.lanes.length ≤ 4) && f.lanes.all LinkLane.wf

def PartnerIdentity.wf (i : PartnerIdentity) : Bool :=
  decide (i.key.length = 97) && decide (i.ephemeral.length = 97) && decide (i.signature.length = 96)

def MarginScan.wf (m : MarginScan) : Bool := decide (m.widths.length ≤ 64) && decide (m.heights.length ≤ 64)

/-- An access within one line. -/
def BasinRequest.wf (r : BasinRequest) : Bool :=
  decide (r.dpa % 128 + (match r.write with | some b => b.length | none => r.len) ≤ 128) && r.faults.all WordFault.wf

def Bar2Request.wf (r : Bar2Request) : Bool :=
  let len := match r.write with | some b => b.length | none => r.len
  decide (0 < len) && decide (r.offset % 4096 + len ≤ 4096) && r.faults.all WordFault.wf

def IdeKeyProg.wf (p : IdeKeyProg) : Bool := decide (p.stream < 8) && decide (p.substream < 3) && decide (p.keySet < 2)

def MsixWrite.wf : MsixWrite → Bool
  | .unmask v => decide (v < 2048)
  | .control _ _ => true

def TestOutcome.wf (o : TestOutcome) : Bool := decide (o.misr < 2 ^ 64) && o.ports.all fun p => decide (p.1 < 64)

/-- The control loop's report: sensors 0-63, rails 0-7 (chapter 20). -/
def LoopReport.wf (r : LoopReport) : Bool := (r.base.all fun x => decide (x.1 < 64)) && (r.sense.all fun x => decide (x.1 < 28)) && r.stateLost.all fun d => decide (d < 4)

def BootReport.wf (r : BootReport) : Bool :=
  (r.bondWires.all fun x => decide (x.1 < 128)) && (r.uncalibrated.all fun n => decide (n < 128))
    && (r.boardPairs.all fun x => decide (x.1 < 12)) && (r.boardFails.all fun x => decide (x.1 < 12))
    && (r.dieWires.all fun x => decide (x.1 < 256)) && (r.untrainedPorts.all fun x => decide (x.1 < 256))
    && r.badRefclk.all fun x => decide (x.1 < 4)

/-- A configuration access names a register, a field, or a link that PCIe has (R841). -/
def ConfigAccess.wf : ConfigAccess → Bool
  | .read offset => decide (offset < 4096)
  | .retrain gen lanes => decide (1 ≤ gen) && decide (gen ≤ 6) && [1, 2, 4, 8, 16].contains lanes
  | .ideStream stream _ => decide (stream < 256)
  | .field _ | .atsEnable | .priEnable _ => true

/-- The operands of a command are within their ranges. -/
def Instr.wf : Instr → Bool
  | .pwrOkAssert => true
  | .pwrOkDeassert => true
  | .coldRstNAssert _ => true
  | .coldRstNRelease => true
  | .perstNAssert _ => true
  | .perstNRelease => true
  | .wardenDpllLock => true
  | .bootStepEnd r => r.wf
  | .configRequest f c => decide (f < 128) && c.wf
  | .kymCqDbWrite f q _ => decide (f < 128) && decide (q < 4)
  | .kymRqDbWrite f q _ => decide (f < 128) && decide (q < 4)
  | .kymUrgDbWrite f _ => decide (f < 128)
  | .aqEnable f => decide (f < 128)
  | .aqDisable f => decide (f < 128)
  | .wardenCtrlRestart f _ => decide (f < 128)
  | .wardenControlMessage _ => true
  | .wardenRestartComplete _ => true
  | .lockstepMismatch => true
  | .sidebandKymalRequest entry _ _ => decide (entry.length = 128)
  | .intakeTake entry _ fenced _ => decide (entry.length = 128) && (fenced.all fun p => decide (p < 640))
  | .deferredFinalReply p _ _ => p.wf
  | .queueAccessError e => e.wf
  | .leaseBreakEffect ref => decide (ref < 2 ^ 32)
  | .fwActivateSwap _ _ => true
  | .hello k => k.wf
  | .queueCreate k => k.wf
  | .queueDelete k => k.wf
  | .queueReset k => k.wf
  | .leaseAcquire k => k.wf
  | .leaseRelease k => k.wf
  | .leaseBreak k => k.wf
  | .resourceAssign k => k.wf
  | .orderArm k => k.wf
  | .orderClear k => k.wf
  | .orderQuery k => k.wf
  | .eventqConfig k => k.wf
  | .logRead k => k.wf
  | .countersRead k => k.wf
  | .polderCreate k => k.wf
  | .polderFree k => k.wf
  | .polderResize k => k.wf
  | .polderRestrength k => k.wf
  | .polderRekey k => k.wf
  | .polderSetSluice k => k.wf
  | .sluiceConfig k => k.wf
  | .basinPartition k => k.wf
  | .basinQuota k => k.wf
  | .basinFlush k => k.wf
  | .spaceCreate k => k.wf
  | .spaceDestroy k => k.wf
  | .translateFill k => k.wf
  | .invalRange k => k.wf
  | .invalTag k => k.wf
  | .apertureMap k => k.wf
  | .apertureUnmap k => k.wf
  | .accessCountSet k => k.wf
  | .channelOpen k => k.wf
  | .channelClose k => k.wf
  | .channelResume k => k.wf
  | .caddyStage k => k.wf
  | .caddyInfuse k => k.wf
  | .caddyBind k => k.wf
  | .caddyUnbind k => k.wf
  | .caddyEvict k => k.wf
  | .programStart k => k.wf
  | .programStop k => k.wf
  | .contextMove k => k.wf
  | .clusterBind k => k.wf
  | .clusterUnbind k => k.wf
  | .powerQuery k => k.wf
  | .islandClockSet k => k.wf
  | .portTrain k => k.wf
  | .portQualify k => k.wf
  | .portMargin k => k.wf
  | .trunkConfig k => k.wf
  | .windowSet k => k.wf
  | .cohortConfig k => k.wf
  | .cohortEpoch k => k.wf
  | .timeLeaderSet k => k.wf
  | .patrolConfig k => k.wf
  | .remapSchedule k => k.wf
  | .healthRead k => k.wf
  | .unitQuery k => k.wf
  | .unitDrain k => k.wf
  | .unitReturn k => k.wf
  | .serviceEnter k => k.wf
  | .fwStage k => k.wf
  | .fwActivate k => k.wf
  | .testRun k => k.wf
  | .testResult k => k.wf
  | .keyGenerate k => k.wf
  | .keyDestroy k => k.wf
  | .debugChallenge k => k.wf
  | .debugUnlock k => k.wf
  | .nonceExpiry => true
  | .eventCollect code severity unit detail => decide (code < 0x2000) && decide (severity < 6) && (unit == 0 || unitWf unit) && decide (detail < 2 ^ 96)
  | .eventRoute => true
  | .spillwayWrite f => decide (f < 128)
  | .faultNExpiry => true
  | .evqHeadWrite f _ => decide (f < 128)
  | .msixVectorUnmask f w => decide (f < 128) && w.wf
  | .timeLoRead f => decide (f < 128)
  | .timeHiRead f => decide (f < 128)
  | .timeRead8b f => decide (f < 128)
  | .sbrBlockWrite offset _ => decide (offset < 0x10000)
  | .sbrBlockRead => true
  | .smbusArp addr => decide (addr < 128)
  | .registerWrite f offset data => decide (f < 128) && decide (offset < 0x10000) && decide (data.length ≤ 128)
  | .jtagSbrAccess offset => decide (offset < 0x10000)
  | .jtagTestrun _ u => unitWf u
  | .bondExtest => true
  | .jtagBoundaryScan _ => true
  | .tbaseBroadcast => true
  | .islandDpllLockLoss i => decide (i < 185)
  | .islandDpllRelock i => decide (i < 185)
  | .dpllLockTimeout i => decide (i < 185)
  | .controlLoop r => r.wf
  | .stackSensorReadout stack _ => decide (stack < 8)
  | .boardTempRead b _ _ => decide (b < 12)
  | .refresh n => decide (n < 140)
  | .thermTrip k => decide (k < 8)
  | .phaseOvercurrent phase => decide (phase < 96)
  | .psbIdentity d body crc => decide (d < 4) && decide (body.length ≤ 64) && decide (crc < 2 ^ 16)
  | .dieHandshakeTimeout d => decide (d < 4)
  | .psbClusterPower d body crc => decide (d < 4) && decide (body.length ≤ 64) && decide (crc < 2 ^ 16)
  | .psbSensors d body crc => decide (d < 4) && decide (body.length ≤ 64) && decide (crc < 2 ^ 16)
  | .psbGrants d body crc => decide (d < 4) && decide (body.length ≤ 64) && decide (crc < 2 ^ 16)
  | .dthermNAssert d _ => decide (d < 4)
  | .narrowRead dpa faults => decide (dpa < 0x8000000000 * 2) && positionsWf faults
  | .fullRead _ faults => positionsWf faults
  | .mergeWrite dpa data _ => decide (dpa < 0x8000000000 * 2) && decide (dpa % 4096 + data.length ≤ 4096)
  | .fullPageWrite _ data => decide (data.length = 4096)
  | .mergeCommit n _ => decide (n < 140)
  | .boardAccessCrcFail b _ _ _ => decide (b < 12)
  | .patrolPage n faults => decide (n < 140) && positionsWf faults
  | .liveRowRemap n bank row => decide (n < 128) && decide (bank < 32) && decide (row < 16384)
  | .stackReadoutSilent stack => decide (stack < 8)
  | .stackFailure stack _ channel _ _ => decide (stack < 8) && decide (channel < 128)
  | .sluiceRedivision waiting => waiting.all fun x => decide (x < 64)
  | .basinAccess r => r.wf
  | .lineFill _ dpa => decide (dpa < 0x8000000000 * 2)
  | .reducerOperation r => r.wf
  | .pumpDbWrite f e c _ => decide (f < 128) && decide (e < 32) && decide (c < 16)
  | .pumpReadAhead e c entry => decide (e < 32) && decide (c < 16) && decide (entry.length = 64)
  | .pumpDispatch e c => decide (e < 32) && decide (c < 16)
  | .hostReadCompletion e c _ _ _ => decide (e < 32) && decide (c < 16)
  | .descriptorComplete e c _ => decide (e < 32) && decide (c < 16)
  | .atsCompletion ast _ _ => decide (ast < 4096)
  | .prgResponse f group _ => decide (f < 128) && decide (group < 512)
  | .atsInvalidateRequest f tag pasid _ _ => decide (f < 128) && decide (tag < 32) && decide (pasid < 2 ^ 20)
  | .engineInvalAck i => decide (i < 48)
  | .accessCountWindow => true
  | .atsEnableClear f => decide (f < 128)
  | .priEnableClear f => decide (f < 128)
  | .infuserJobStart u _ => decide (u < 8)
  | .infuserJobComplete u => decide (u < 8)
  | .gatherJobAccept e lane _ => decide (e < 8) && decide (lane < 64)
  | .gatherSlotRelease e lane => decide (e < 8) && decide (lane < 64)
  | .gatherSlotDeliver e lane _ => decide (e < 8) && decide (lane < 64)
  | .gatherJobComplete e lane => decide (e < 8) && decide (lane < 64)
  | .programStartTime q => decide (q < 64)
  | .slotBoundary q => decide (q < 64)
  | .tokenGrant => true
  | .seqLoadReturn q faults => decide (q < 64) && faults.all WordFault.wf
  | .operationCompletion q _ => decide (q < 64)
  | .redAckReceived q _ => decide (q < 64)
  | .signalArrival src dst => decide (src < 64) && decide (dst < 64)
  | .fenceComplete q => decide (q < 64)
  | .endComplete q => decide (q < 64)
  | .opNop q => decide (q < 64)
  | .opJal q => decide (q < 64)
  | .opJalr q => decide (q < 64)
  | .opBr q => decide (q < 64)
  | .opBri q => decide (q < 64)
  | .opSel q => decide (q < 64)
  | .opEnd q => decide (q < 64)
  | .opAlu q => decide (q < 64)
  | .opAlui q => decide (q < 64)
  | .opLi q => decide (q < 64)
  | .opLih q => decide (q < 64)
  | .opLds q faults => decide (q < 64) && faults.all WordFault.wf
  | .opSts q faults => decide (q < 64) && faults.all WordFault.wf
  | .opLd q => decide (q < 64)
  | .opSt q => decide (q < 64)
  | .opLdPair q => decide (q < 64)
  | .opStPair q => decide (q < 64)
  | .opPref q => decide (q < 64)
  | .opPumpIss q faults => decide (q < 64) && faults.all WordFault.wf
  | .opGathIss q faults => decide (q < 64) && faults.all WordFault.wf
  | .opInfIss q faults => decide (q < 64) && faults.all WordFault.wf
  | .opRed q faults => decide (q < 64) && faults.all WordFault.wf
  | .opGrant q => decide (q < 64)
  | .opStrmBind q => decide (q < 64)
  | .opStrmSend q faults => decide (q < 64) && faults.all WordFault.wf
  | .opStrmRecv q => decide (q < 64)
  | .opFence q => decide (q < 64)
  | .opTokAcq q => decide (q < 64)
  | .opTokRel q => decide (q < 64)
  | .opSigPost q => decide (q < 64)
  | .opSigWait q => decide (q < 64)
  | .opSigRead q => decide (q < 64)
  | .opSlotWait q => decide (q < 64)
  | .opSlotLen q => decide (q < 64)
  | .opSlotGet q => decide (q < 64)
  | .opTimeGet q => decide (q < 64)
  | .opCsrRd q => decide (q < 64)
  | .opDbgMark q => decide (q < 64)
  | .opDbgStop q => decide (q < 64)
  | .d2dGroupReceived c a => decide (c < 256) && a.wf
  | .apertureRequest c tag faults => decide (c < 256) && decide (tag < 256) && faults.all WordFault.wf
  | .apertureResponse c tag => decide (c < 256) && decide (tag < 256)
  | .signalMessage c rank => decide (c < 256) && decide (rank < 64)
  | .trapMessage c => decide (c < 256)
  | .creditsMessage c => decide (c < 256)
  | .fetchRequest c frame wire faults => decide (c < 256) && decide (frame < 2 ^ 64) && decide (wire < 512) && faults.all WordFault.wf
  | .flitReceived p line => decide (p < 48) && linesWf line
  | .tagFlitReceived p line next => decide (p < 48) && linesWf line && linesWf next
  | .linkFlitReceived p line => decide (p < 48) && linesWf line
  | .replayTimeout p => decide (p < 48)
  | .partnerSilent p => decide (p < 48)
  | .linkRefclkLost q => decide (q < 4)
  | .linkRetrainEnd p _ => decide (p < 48)
  | .trainingFrame p f => decide (p < 48) && f.wf
  | .identifyExchange p _ i => decide (p < 48) && i.wf
  | .manifestMessage p => decide (p < 48)
  | .qualifyCheckerLock p lane => decide (p < 48) && decide (lane < 4)
  | .qualifyEnd p _ => decide (p < 48)
  | .marginScanEnd p lane m => decide (p < 48) && decide (lane < 4) && m.wf
  | .remoteRequest p faults => decide (p < 48) && faults.all WordFault.wf
  | .remoteCompletion p => decide (p < 48)
  | .timeRequestSend p => decide (p < 48)
  | .timeMessage p => decide (p < 48)
  | .cohortSyncPulse => true
  | .cohortSyncEdge => true
  | .cohortSyncTimeout => true
  | .bar2Access f r => decide (f < 128) && r.wf
  | .bar2MapWrite f n _ => decide (f < 128) && decide (n < 256)
  | .functionLevelReset f => decide (f < 128)
  | .vfEnable k => decide (k ≤ 127)
  | .vfDisable k => decide (k < 127)
  | .ideMacFailure i => decide (i < 8)
  | .spdmRequest version _ => decide (version < 256)
  | .ideKmKeyProg p => p.wf
  | .glitchDetect detectors _ => decide (detectors < 8)
  | .entropyHealthFail _ => true
  | .stripeMove n faults => decide (n < 140) && faults.all PageFault.wf
  | .drainEnd u => unitWf u
  | .conversionPage polder => decide (polder < 256)
  | .testComplete u o => unitWf u && o.wf
  | .completionTimeout t => t.wf
  | .blockLockLost p lane => decide (p < 48) && decide (lane < 4)
  | .stuffDebtOverflow p lane frames => decide (p < 48) && decide (lane < 4) && decide (frames ≥ 1)
  | .vinIvrUndervoltage _ => true
  | .patrolRateWindow n => decide (n < 140)
  | .trstNAssert => true
  | .invalidInstructionWord q => decide (q < 64)

end Sys2Proof
end

