-- ==== Sys2Proof/Safety.lean ====
section
/-! DEFINITION. The terms the statements use: what a command leaves alone, how a Kymal command is answered, and the form
that every state's memory keeps. -/

namespace Sys2Proof.Machine

/-- A part of the state, as the frames name them. -/
inductive Part where
  | freeCtr
  /-- What has been sent, and what waits to be in the host island. -/
  | out
  | boot | flash | clk
  /-- Warden state, lockstep record, activation. -/
  | warden
  /-- Admin queue registers, urgent command and overrun, version of each function. -/
  | fns
  /-- Urgent reply, busy and done of each function. -/
  | urgent
  /-- Queue pairs but for their reply rings. -/
  | pairs
  /-- Reply ring index, phase and unread count of each pair. -/
  | rings
  /-- Sequence expectations and histories. -/
  | seqs
  /-- Rung doorbells, last position served, sideband requests and version. -/
  | intake
  | running | held | leases | breaks | assign | gens
  | orders | ev
  /-- The host interface but for the Pending Bit Arrays. -/
  | host
  /-- Pending Bit Arrays. -/
  | msix
  | mem | basin | svc | sealed | xlat | pumps | inf | gath | prog | d2d | link | cohort | power
deriving DecidableEq, Repr

def wardenPart (k : Kym) := (k.warden, k.mismatches, k.mismatchAt, k.mismatchPending, k.restartFailed, k.activating)
def intakePart (k : Kym) := (k.rung, k.lastPos, k.sideband, k.sidebandVersion)
def gensPart (k : Kym) := (k.genCount, k.genEpoch)
def urgentPart (k : KymFn) := (k.urgRply, k.urgBusy, k.urgDone)
def ringPart (p : QPair) := (p.ridx, p.unread, p.phase)
def urgentBlind (k : KymFn) : KymFn := { k with urgRply := [], urgBusy := false, urgDone := false }
def ringBlind (p : QPair) : QPair := { p with ridx := 0, unread := 0, phase := true }
def pbaBlind (h : HostFn) : HostFn := { h with pba := {} }
def hostRest (h : HostIf) : HostIf := { h with fns := {} }

/-- The part is the same in both states. -/
def Part.kept (s t : State) : Part → Prop
  | .freeCtr => t.freeCtr = s.freeCtr
  | .out => (t.out, t.heldOut) = (s.out, s.heldOut)
  | .boot => t.boot = s.boot
  | .flash => t.flash = s.flash
  | .clk => t.clk = s.clk
  | .warden => wardenPart t.kym = wardenPart s.kym
  | .fns => ∀ f, urgentBlind (t.kymFn f) = urgentBlind (s.kymFn f)
  | .urgent => ∀ f, urgentPart (t.kymFn f) = urgentPart (s.kymFn f)
  | .pairs => ∀ f q, (t.pair? f q).map ringBlind = (s.pair? f q).map ringBlind
  | .rings => ∀ f q, (t.pair? f q).map ringPart = (s.pair? f q).map ringPart
  | .seqs => t.kym.seqs = s.kym.seqs
  | .intake => intakePart t.kym = intakePart s.kym
  | .running => t.kym.running = s.kym.running
  | .held => t.kym.heldReplies = s.kym.heldReplies
  | .leases => t.kym.leases = s.kym.leases
  | .breaks => t.kym.breaks = s.kym.breaks
  | .assign => t.kym.assign = s.kym.assign
  | .gens => gensPart t.kym = gensPart s.kym
  | .orders => t.orders = s.orders
  | .ev => t.ev = s.ev
  | .host => (∀ f, pbaBlind (t.hostFn f) = pbaBlind (s.hostFn f))
      ∧ hostRest t.host = hostRest s.host
  | .msix => ∀ f, (t.hostFn f).pba = (s.hostFn f).pba
  | .mem => t.mem = s.mem
  | .basin => t.basin = s.basin
  | .svc => t.svc = s.svc
  | .sealed => t.sealed = s.sealed
  | .xlat => t.xlat = s.xlat
  | .pumps => t.pumps = s.pumps
  | .inf => t.inf = s.inf
  | .gath => t.gath = s.gath
  | .prog => t.prog = s.prog
  | .d2d => t.d2d = s.d2d
  | .link => t.link = s.link
  | .cohort => t.cohort = s.cohort
  | .power => t.power = s.power

/-- Nothing but the listed parts changes, and the queue of waiting commands does not. -/
def Only (ps : List Part) (s t : State) : Prop :=
  t.pending = s.pending ∧ ∀ p, p ∉ ps → p.kept s t

/-- What writing a reply may change: the trace of the outside, the reply ring or urgent mailbox, a pending vector, the
held replies and the history of the command's path. -/
def replyParts : List Part := [.out, .msix, .urgent, .rings, .held, .seqs]

/-- The state in which a command is judged: its sequence is taken (R82). -/
def taken (s : State) (c : Cmd) (k : KCmd) : State := s.takeSeq k.path k.seq c.opcode

/-- The warden takes commands, and from this one's path; this one has the expected sequence, passes every check of Table 3-3, and the device can
complete it (R80-R89). -/
abbrev Passes (c : Cmd) (k : KCmd) (s : State) : Prop :=
  s.takesFrom k = true ∧ seqCheck s c.opcode k = none ∧ judge c k (taken s c k) = none ∧ c.internal (taken s c k) k = 0

/-- The block has sent this, or its host island has it to send once its clock runs again. -/
def Sent (o : Out) (t : State) : Prop := o ∈ t.out ∨ o ∈ t.heldOut

/-- A reply entry was written, or waits for its pair to be reset or enabled (R72, R157). -/
def Delivered (r : Reply) (t : State) : Prop :=
  r ∈ t.kym.heldReplies ∨ ∃ i h p, Sent (Out.reply r.path i (replyBytes r h p)) t

/-- A mode S command is done: its history entry holds ST_OK and its final reply carries the result and the generation of
its primary resource after the command (R83, R88, Table 3-2). -/
def DoneOk (c : Cmd) (k : KCmd) (t : State) (gen : Nat) (result : Bytes) : Prop :=
  ∃ d, (t.seqState k.path).history.head? = some ⟨k.seq, c.opcode, some stOk, d⟩
    ∧ Delivered { path := k.path, opcode := c.opcode, seq := k.seq, status := stOk, detail := d, gen := gen,
                       result := result } t

/-- A mode A command is accepted: it runs on its resource, its history entry has no status yet, and ST_ACCEPTED was
answered unless it came by the urgent mailbox (R83, R91, R116). -/
def Accepted (c : Cmd) (k : KCmd) (ref : Nat) (t : State) : Prop :=
  (t.seqState k.path).history.head? = some ⟨k.seq, c.opcode, none, 0⟩
    ∧ (∃ o, { opcode := c.opcode, cmd := k, ref := ref, outcome := o } ∈ t.kym.running)
    ∧ (k.path.isUrgent = false →
        Delivered { path := k.path, opcode := c.opcode, seq := k.seq, status := stAccepted, final := false,
                    gen := t.generation ref } t)

/-- The generation of one resource has moved by one, of every other not at all (R104). -/
def BumpsGen (ref : Nat) (s t : State) : Prop :=
  ∀ r, t.generation r = if r = ref then s.generation r + 1 else s.generation r

/-- The generation of each listed resource has moved by one, of every other not at all (R104). -/
def BumpsGens (refs : List Nat) (s t : State) : Prop :=
  ∀ r, t.generation r = if r ∈ refs then s.generation r + 1 else s.generation r

/-- An invalidation has begun: no entry of the shared cache overlaps it, and it waits for every engine in service
(R468-R470, R473). -/
def Invalidates (sc : InvalScope) (cause : InvalCause) (s t : State) : Prop :=
  (∀ e ∈ t.xlat.shared, s.overlaps sc e = false)
    ∧ ((List.range 48).filter s.holdsEntries ≠ [] →
        ({ scope := sc, cause := cause, waiting := (List.range 48).filter s.holdsEntries } : Inval) ∈ t.xlat.invals)

/-- A cold reset has come: but for the pins, flash, the TAP and the model's own, everything stands as in the reset state
(R236, R261, R263, Table 6-6). -/
def ColdReset (s t : State) : Prop :=
  { t with boot := {}, flash := {}, host := {}, pending := [], freeCtr := 0, out := [] } = State.reset
    ∧ t.heldOut = [] ∧ t.flash = s.flash ∧ t.pending = s.pending ∧ t.out = s.out ∧ t.freeCtr = s.freeCtr

/-! ### Memory -/

/-- A request of channel `n` is served when it comes: its island's clock runs and nothing is on the crossing, and neither it
nor an earlier request waits at the channel (R44, R298). -/
abbrev Serves (s : State) (n : Nat) (row : Instr) : Prop := s.crosses (chanIsland n) = false ∧ s.queues n row = false

/-- A channel without its count of row activations (R309). -/
def actBlind (c : Channel) : Channel := { c with acts := 0, actsAt := 0 }

/-- The channels stand as they did, but for the row activations counted. -/
abbrev ChansStand (s t : State) : Prop := ∀ n, actBlind (t.chan n) = actBlind (s.chan n)

/-- Channel `n` drains by a command that runs, under a warden that does, its stack has not failed, and both channels' islands run with
activations left (R44, R309, R320, R952). -/
abbrev MovesPieces (s : State) (n m : Nat) : Prop :=
  s.chanLost n = false ∧ s.runningOn 0x1902 (chanUnit n) = true ∧ s.canReport = true ∧ s.islandHalted (chanIsland n) = false
    ∧ s.islandHalted (chanIsland m) = false ∧ s.capped n = false ∧ s.capped m = false

/-! ### Sequencers -/

/-- Sequencer `q` starts the instruction `i`: it runs, nothing blocks it, its word is `i`, and where its program runs in
debug mode every register is settled (R624, R655, R667). -/
abbrev Issues (s : State) (q : Nat) (i : SInstr) : Prop :=
  s.mayIssue q = true ∧ decodeSeq (s.wordAt q) = some i ∧ ((s.sq q).debug = false ∨ (s.sq q).fresh = {})

/-- Nothing outstanding can be in the way of the debug hazard detector (R655). -/
abbrev Unhindered (s : State) (q : Nat) : Prop := (s.sq q).debug = false ∨ (s.sq q).ops = []

/-- The values an instruction may read: a register's value, or, while the latency of its writer has not passed, the value
before it (R668, rule H1). -/
def Reads (s : State) (q : Nat) (v : Nat → BitVec 64) : Prop :=
  ∀ r, v r = (s.sq q).reg r ∨ ∃ f, (s.sq q).fresh.get? r = some f ∧ v r = f.old

/-- A sequencer without the detector's and the latencies' own record. -/
def settled (x : Sequencer) : Sequencer := { x with fresh := {}, hold := none }

/-- Among the sequencers only `q` changes, and no part but the sequencers and the model's counter. -/
def SeqOnly (q : Nat) (s t : State) : Prop :=
  (∀ p, p ≠ q → t.sq p = s.sq p) ∧ t.prog = { s.prog with seqs := t.prog.seqs } ∧ Only [.prog, .freeCtr] s t

/-- The sequencer afterwards is `x`, but for the detector's and the latencies' record. -/
def SeqBecomes (q : Nat) (x : Sequencer) (s t : State) : Prop := settled (t.sq q) = settled x ∧ SeqOnly q s t

/-- Registers and the pc aside, the sequencer is as it was. -/
def SeqKeeps (q : Nat) (s t : State) : Prop :=
  settled { t.sq q with regs := {}, pc := 0 } = settled { s.sq q with regs := {}, pc := 0 } ∧ SeqOnly q s t

/-- Register `a` takes a value, s0 never; the pc is `pc`; nothing else changes (R625). -/
def SetsRegAt (q a pc : Nat) (v : BitVec 64) (s t : State) : Prop :=
  (t.sq q).pc = pc ∧ (∀ j, (t.sq q).reg j = if j = a ∧ a ≠ 0 then v else (s.sq q).reg j) ∧ SeqKeeps q s t

/-- The index after the pc. -/
def after (s : State) (q : Nat) : Nat := ((s.sq q).pc + 1) % 8192

/-- Register `a` takes a value and the next instruction follows. -/
def SetsReg (q a : Nat) (v : BitVec 64) (s t : State) : Prop := SetsRegAt q a (after s q) v s t

/-- Sequencer `q` traps at its pc: it is TRAPPED, holds the tokens in use only and asks for none, and EV_SEQ_TRAP with the
cause, address and unit is on its way (R649, R703). -/
def SeqTraps (q cause addr unit : Nat) (s t : State) : Prop :=
  settled (t.sq q) = settled { s.sq q with state := .trapped, wait := none, held := (s.sq q).inUse }
    ∧ (∀ p, p ≠ q → t.sq p = s.sq p)
    ∧ t.prog = { s.prog with seqs := t.prog.seqs, queue := s.prog.queue.filter fun r => r.seq != q }
    ∧ t.ev = (s.raise 0x0B01 sevDegraded (seqUnit q)
        [(8, cause), (8, 0), (13, (s.sq q).pc), (3, 0), (48, addr % 2 ^ 48), (16, unit)]).ev
    ∧ Only [.prog, .ev, .freeCtr] s t

/-- Sequencer `q` goes on with one more outstanding operation of a class of Table 15-5, issued at its pc: the counter that
its completion raises, where its record goes, its tokens, and what is left to do (R657, R681). -/
def IssuesOp (q cls : Nat) (counter : Option Nat) (scratch tokens : Nat) (work : OpWork) (s t : State) : Prop :=
  (∃ o : SeqOp, o.id = (s.sq q).nextOp ∧ o.index = (s.sq q).pc ∧ o.cls = cls ∧ o.counter = counter ∧ o.scratch = scratch
    ∧ o.tokens = tokens ∧ o.work = work ∧ o.done = none
    ∧ settled (t.sq q) = settled { s.sq q with pc := after s q, nextOp := (s.sq q).nextOp + 1, ops := (s.sq q).ops ++ [o],
                                               inUse := (s.sq q).inUse + tokens })
  ∧ (∀ p, p ≠ q → t.sq p = s.sq p) ∧ t.prog = { s.prog with seqs := t.prog.seqs }

/-- The tag of the operation that sequencer `q` issues next. -/
def nextTag (s : State) (q : Nat) : SeqTag := ⟨q, (s.sq q).nextOp, (s.sq q).program⟩

/-- No byte of a run of local scratch is a destination of an outstanding operation (rule H2). -/
def Quiet (s : State) (q a n : Nat) : Prop := ∀ k, k < n → (s.sq q).owned (a + k) = none

/-! ### Link ports -/

/-- SO_LINK_RETRAIN of the port is armed and its hourly limit is not reached (R785, Table 5-2). -/
def Retries (s : State) (p : Nat) : Bool :=
  (s.order (orderRef 6 (portUnit p))).armed
    && decide ((lastHour s.now (s.lport p).retrains).length < fieldAt (s.order (orderRef 6 (portUnit p))).params 0 2)

/-- Port `p` has left ACTIVE for a cause on a lane: its link is gone and nothing is outstanding on it; it retrains where
its standing order lets it, else it is untrained and OUT_OF_SERVICE (R781-R785). -/
def Leaves (p cause lane : Nat) (s t : State) : Prop :=
  (t.lport p).exits = s.now :: lastHour s.now (s.lport p).exits ∧ (t.lport p).unacked = [] ∧ (t.lport p).arrived = []
    ∧ (t.lport p).keys = none ∧ (∀ r ∈ t.cohort.reqs, r.port ≠ p)
    ∧ (Retries s p = false → (t.lport p).state = portOff ∧ t.unitState (portUnit p) = .outOfService)
    ∧ (Retries s p = true →
        (t.lport p).state = portRetrain ∧ ∃ f n, (t.lport p).work = some (.retrain cause lane s.now f n))
    ∧ ∀ x ∈ [Part.boot, .flash, .clk, .leases, .inf, .gath, .power], x.kept s t

/-- A transaction of a class was queued on port `p` (R770-R772). -/
def Queued (p cls : Nat) (bs : Bytes) (t : State) : Prop := Out.link p (cls :: bs.map (·.toNat)) ∈ t.out

/-- The completion of a REQ went to port `p`: its tag, requester and status, and data (Table 18-3, R820). -/
def CplQueued (p tag dst status : Nat) (data : Bytes) (s t : State) : Prop :=
  Queued p clsCpl (txHeader 4 tag s.cohort.member dst data.length status 0 s.cohort.epoch.toNat ++ data) t

end Sys2Proof.Machine
end

