-- ==== Sys2Proof/Certificates/Slice0/Obligations.lean ====
section
/-! DEFINITION. The statements about the block. -/

open Sys2Proof Sys2Proof.Machine

/-- A step takes the command at the front of the queue and runs it on the state with the queue's rest. -/
def Obligations.StepRunsTheFrontCommand : Prop :=
  ∀ (c : Instr) (rest : List Instr) (s : State), s.pending = c :: rest → step s = exec c { s with pending := rest }

/-- The model's own choice (log entry 1): while no command waits, a step lets the oldest transfer on a crossing into a running
island arrive and runs its row, the transfers behind it keeping their order and at most four of them in the FIFO (R43, R44);
where nothing waits at a border, at a memory channel or at a pump engine, it is one tick of the warden clock. TBASE then
counts 1 ns, or 0 or 2 ns where the rate correction of R832 has come to a whole nanosecond, while the warden DPLL is locked
and the warden island's clock runs (R45, R55). -/
def Obligations.IdleStepCountsTime : Prop :=
  (∀ (s t : State) (i : Nat) (row : Instr) (rest : List Instr), s.pending = [] → s.nextCrossing = some (i, row, rest) →
    exec row (s.setCrossing i []) = .next t → ∃ u, step s = .next u
    ∧ (u.clk.crossings.get {} i).rows = rest ++ (t.clk.crossings.get {} i).rows
    ∧ (u.clk.crossings.get {} i).fifo.length ≤ 4 ∧ Only [.clk] t u)
  ∧ ∀ s : State, s.pending = [] → s.nextCrossing = none → s.nextServed = none → s.engineWaiting = none →
    ∃ t, step s = .next t
    ∧ ((s.clk.wardenLocked = false ∨ s.islandHalted islWarden = true) → t = s)
    ∧ (s.clk.wardenLocked = true → s.islandHalted islWarden = false →
        ∃ d : Nat, d ≤ 2 ∧ t.clk = { s.clk with tbase := s.clk.tbase + BitVec.ofNat 64 d }
          ∧ (100000000 : Int) * d + t.cohort.residue = 100000000 + s.cohort.residue + s.cohort.correction
          ∧ (s.cohort.correction = 0 → s.cohort.residue.natAbs < 100000000 → d = 1)
          ∧ t.cohort = { s.cohort with residue := t.cohort.residue } ∧ Only [.clk, .cohort] s t)

/-- What a cold reset leaves, as the spec gives it: TBASE zero (R45), the device BOOTING with BOOT.PROGRESS zero (Table 6-7),
the event sequence at 1 (R201), every key slot empty (R261), debug locked, no lease, every resource with the PF, no standing
order armed, no polder, sluice, space, caddy or trunk, every pump channel closed, every link port untrained (Table 6-6),
and the cohort epoch zero (R835). -/
def Obligations.ResetLeavesTheDeviceCold : Prop :=
  State.reset.now = 0 ∧ State.reset.boot.device = .booting ∧ State.reset.boot.step = 0 ∧ State.reset.boot.failStep = 0
  ∧ State.reset.boot.fallback = false ∧ State.reset.boot.lostAtBoot = false ∧ State.reset.ev.nextSeq = 1
  ∧ State.reset.ev.log = [] ∧ State.reset.sealed.slots = {} ∧ State.reset.sealed.unlocked = none
  ∧ State.reset.kym.leases = [] ∧ (∀ r, State.reset.assignedFn r = 0) ∧ (∀ r, (State.reset.order r).armed = false)
  ∧ (∀ i, State.reset.polder? i = none) ∧ (∀ i, State.reset.space? i = none) ∧ State.reset.inf.caddies = {}
  ∧ State.reset.mem.sluices = {} ∧ State.reset.link.trunks = {} ∧ (∀ k, State.reset.isHostChan k = false)
  ∧ (∀ p, (State.reset.lport p).state = portOff) ∧ State.reset.cohort.epoch = 0 ∧ (∀ q, (State.reset.sq q).state = .idle)
  ∧ (∀ f q, State.reset.pair? f q = none) ∧ State.reset.pending = []

/-- Words written out from Table 15-1 and Table 15-2, those of the worked example of chapter 15 among them, decode to the
instructions they stand for; a word with an unlisted opcode, a reserved field that is not zero, or an invalid field value
decodes to none (R664, R665). -/
def Obligations.SequencerWordsDecode : Prop :=
  decodeSeq 0x0000000200000040 = some (.tokAcq 0 2)
  ∧ decodeSeq 0x0000010000000912 = some (.li 9 0x100)
  ∧ decodeSeq 0x0000000001292331 = some (.gathIss 3 9 10 2)
  ∧ decodeSeq 0x0001000300000049 = some (.sigWait 3 1)
  ∧ decodeSeq 0x0000000001814B18 = some (.lds 11 10 3 false 0)
  ∧ decodeSeq 0x0000000200000041 = some (.tokRel 0 2)
  ∧ decodeSeq 0 = none
  ∧ decodeSeq 0x0000000000000062 = none
  ∧ decodeSeq 0x0000000000000101 = none
  ∧ decodeSeq 0x0000000003000004 = none
  ∧ decodeSeq 0x0000000004000122 = none

/-- Decode and encode agree for the sequencers' instruction words: every well-formed instruction is read back from its word,
and every word that decodes is the word of a well-formed instruction, so that no bit of an encoding is dropped (R664, R665,
Tables 15-1 and 15-2). -/
def Obligations.SequencerDecodeInvertsEncode : Prop :=
  (∀ i : SInstr, i.wf = true → decodeSeq (encodeSeq i) = some i ∧ encodeSeq i < 2 ^ 64)
  ∧ ∀ (w : Nat) (i : SInstr), w < 2 ^ 64 → decodeSeq w = some i → i.wf = true ∧ encodeSeq i = w

/-- Every step keeps the canonical form of memory: addresses strictly rising, and no entry equal to what an unlisted
address reads as. -/
def Obligations.StepKeepsMemoryCanonical : Prop :=
  ∀ s t : State, s.mem.wf = true → step s = .next t → t.mem.wf = true

/-- Memory has its canonical form at reset. -/
def Obligations.ResetMemoryIsCanonical : Prop := State.reset.mem.wf = true

/-- A Kymal command that fails any check changes nothing but what its reply and its sequence number change, COHORT_CONFIG's
discard of the pieces held apart (R811); its history entry holds the status and the detail of the check, and its reply is
delivered with them (R82, R83, R88). -/
def Obligations.FailedCheckChangesNothing : Prop :=
  ∀ (c : Cmd) (k : KCmd) (s : State) (f : Fail), s.takesFrom k = true → seqCheck s c.opcode k = none →
    judge c k (taken s c k) = some f → (c = cohortConfigCmd ∨ ∀ u, c.onBad u k = u) →
    ((∀ u, c.onBad u k = u) → Only replyParts s (s.kymal c k))
    ∧ (c = cohortConfigCmd → Only (.cohort :: replyParts) s (s.kymal c k))
    ∧ ((s.kymal c k).seqState k.path).history.head? = some ⟨k.seq, c.opcode, some f.status, f.detail⟩
    ∧ ((s.kymal c k).seqState k.path).expected = some (k.seq + 1)
    ∧ ∃ r, r.status = f.status ∧ r.detail = f.detail ∧ r.seq = k.seq ∧ r.opcode = c.opcode ∧ Delivered r (s.kymal c k)

/-- The ALU functions of Table 15-3 as integer arithmetic: results wrap modulo 2^64, shifts take bits [5:0] of the second
operand, and an ALU instruction changes its register and the pc only, so it sets no flag (R672). -/
def Obligations.AluFunctionsFollowTheTable : Prop :=
  (∀ a b : BitVec 64,
    (aluFn 0 a b).toNat = (a.toNat + b.toNat) % 2 ^ 64
    ∧ ((aluFn 1 a b).toNat : Int) = ((a.toNat : Int) - b.toNat) % 2 ^ 64
    ∧ (∀ i, (aluFn 2 a b).getLsbD i = (a.getLsbD i && b.getLsbD i))
    ∧ (∀ i, (aluFn 3 a b).getLsbD i = (a.getLsbD i || b.getLsbD i))
    ∧ (∀ i, (aluFn 4 a b).getLsbD i = (a.getLsbD i != b.getLsbD i))
    ∧ (aluFn 5 a b).toNat = a.toNat * 2 ^ (b.toNat % 64) % 2 ^ 64
    ∧ (aluFn 6 a b).toNat = a.toNat / 2 ^ (b.toNat % 64)
    ∧ (aluFn 7 a b).toInt = a.toInt / 2 ^ (b.toNat % 64)
    ∧ (aluFn 8 a b).toNat = (if a.toInt < b.toInt then 1 else 0)
    ∧ (aluFn 9 a b).toNat = (if a.toNat < b.toNat then 1 else 0)
    ∧ (aluFn 10 a b).toNat = a.toNat * b.toNat % 2 ^ 64
    ∧ (aluFn 11 a b).toNat = a.toNat * b.toNat / 2 ^ 64
    ∧ (aluFn 12 a b).toInt = min a.toInt b.toInt
    ∧ (aluFn 13 a b).toInt = max a.toInt b.toInt
    ∧ (aluFn 14 a b).toNat = min a.toNat b.toNat
    ∧ (aluFn 15 a b).toNat = max a.toNat b.toNat)
  ∧ ∀ (s : State) (q a b c fn : Nat), Issues s q (.alu a b c fn) → ∃ t v, Reads s q v ∧ exec (.opAlu q) s = .next t
    ∧ SetsReg q a (aluFn fn (v b) (v c)) s t

/-- Register s0 reads zero and drops what is written to it (R625). -/
def Obligations.RegisterZeroReadsZero : Prop :=
  (∀ x : Sequencer, x.reg 0 = 0) ∧ ∀ (x : Sequencer) (v : BitVec 64) (lat : Nat), x.setReg 0 v = x
    ∧ ∀ j, (x.result 0 v lat).reg j = x.reg j

/-- SIG.POST with a value of zero, to a target that exists, and SIG.WAIT with a value of zero complete at once: the next
instruction follows, nothing waits, no post is on its way and no counter of any sequencer changes (R697). -/
def Obligations.ZeroSignalsChangeNoCounter : Prop :=
  (∀ (s : State) (q b index counter : Nat) (toCluster : Bool), Issues s q (.sigPost b index toCluster counter) →
    (s.sq q).reg b = 0 → (s.sq q).fresh.get? b = none →
    (if toCluster then (s.bindingOf q).clusters[index]?.isSome else (s.bindingOf q).seqs[index]?.isSome) = true →
    ∃ t, exec (.opSigPost q) s = .next t ∧ (t.sq q).pc = after s q ∧ (t.sq q).wait = none
    ∧ t.prog.posts = s.prog.posts ∧ t.d2d = s.d2d ∧ t.out = s.out ∧ ∀ p, (t.sq p).counters = (s.sq p).counters)
  ∧ ∀ (s : State) (q j : Nat), Issues s q (.sigWait j 0) →
    ∃ t, exec (.opSigWait q) s = .next t ∧ (t.sq q).pc = after s q ∧ (t.sq q).wait = none
    ∧ ∀ p, (t.sq p).counters = (s.sq p).counters

/-- FENCE waits for exactly the operations outstanding at its issue whose class its mask names: with none of them, a mask of
zero among them, it completes at once; else it completes as soon as none of those is outstanding, whatever was issued
after it (R693). -/
def Obligations.FenceWaitsForEarlierOperations : Prop :=
  (∀ (s : State) (q mask : Nat), Issues s q (.fence mask) → ∃ t, exec (.opFence q) s = .next t
    ∧ (mask = 0 → (t.sq q).wait = none ∧ (t.sq q).pc = after s q)
    ∧ ((∀ o ∈ (s.sq q).ops, bitOf mask o.cls = false) → (t.sq q).wait = none ∧ (t.sq q).pc = after s q)
    ∧ ((∃ o ∈ (s.sq q).ops, bitOf mask o.cls = true) → (t.sq q).pc = (s.sq q).pc
        ∧ ∃ ids, (t.sq q).wait = some (.fence ids)
          ∧ ∀ i, i ∈ ids ↔ ∃ o ∈ (s.sq q).ops, o.id = i ∧ bitOf mask o.cls = true))
  ∧ ∀ (s : State) (q : Nat) (ids : List Nat), s.islandHalted q = false → (s.sq q).wait = some (.fence ids) →
    ∃ t, exec (.fenceComplete q) s = .next t
    ∧ ((∃ o ∈ (s.sq q).ops, o.id ∈ ids) → t = s)
    ∧ ((∀ o ∈ (s.sq q).ops, o.id ∉ ids) → (t.sq q).wait = none ∧ (t.sq q).pc = after s q)

/-- A slot-wait for boundary k completes at its issue only when boundary k is passed, and then counts one late slot; else it
waits, through every boundary before k, and completes with boundary k without a late slot (R636). -/
def Obligations.SlotWaitNeverEndsEarly : Prop :=
  (∀ (s : State) (q b imm : Nat), Issues s q (.slotWait b imm) → ∃ t v k, Reads s q v
    ∧ k = ((v b).toNat + imm) % 2 ^ 64 ∧ exec (.opSlotWait q) s = .next t
    ∧ (k ≤ (s.sq q).slots → (t.sq q).wait = none ∧ (t.sq q).pc = after s q ∧ (t.sq q).late = (s.sq q).late + 1)
    ∧ ((s.sq q).slots < k → (t.sq q).wait = some (.slot k) ∧ (t.sq q).pc = (s.sq q).pc ∧ (t.sq q).late = (s.sq q).late))
  ∧ ∀ (s : State) (q k : Nat), q < 64 → s.islandHalted q = false → (s.sq q).state = .running →
    (s.sq q).wait = some (.slot k) → (s.sq q).stopping = false → s.boot.device ≠ .lost →
    ∃ t, exec (.slotBoundary q) s = .next t ∧ (t.sq q).slots = (s.sq q).slots + 1 ∧ (t.sq q).late = (s.sq q).late
    ∧ ((s.sq q).slots + 1 < k → (t.sq q).wait = some (.slot k) ∧ (t.sq q).pc = (s.sq q).pc)
    ∧ (k ≤ (s.sq q).slots + 1 → (t.sq q).wait = none ∧ (t.sq q).pc = after s q)

/-- A TOK.ACQ that is not granted waits in the queue of the power manager, which grants requests whole and in the order of
the queue: some first part of it is granted, each request in full, and the oldest that is left does not fit the pool
(R643). -/
def Obligations.TokensAreGrantedWholeAndInOrder : Prop :=
  (∀ (s : State) (q b imm n : Nat), Issues s q (.tokAcq b imm) → Bank.sorted s.prog.seqs.cells = true →
    (s.sq q).fresh.get? b = none → n = (((s.sq q).reg b).toNat + imm) % 2 ^ 64 → n ≠ 0 →
    (∀ c, s.inf.caddies.get? (s.slotOf q) = some c → s.heldBy (s.sq q).program + n ≤ c.envelope) →
    (s.inf.caddies.get? (s.slotOf q)).isSome = true → s.islandHalted islPmgr = false → s.pool < s.heldTokens + n →
    ∃ t, exec (.opTokAcq q) s = .next t ∧ (t.sq q).wait = some (.token n) ∧ (t.sq q).pc = (s.sq q).pc
    ∧ (t.sq q).held = (s.sq q).held ∧ t.prog.queue = s.prog.queue ++ [⟨q, n⟩])
  ∧ ∀ s : State, s.islandHalted islPmgr = false → Bank.sorted s.prog.seqs.cells = true →
    ∃ t n, exec .tokenGrant s = .next t
    ∧ t.prog.queue = s.prog.queue.drop n
    ∧ t.heldTokens = s.heldTokens + ((s.prog.queue.take n).map (·.n)).foldr (· + ·) 0
    ∧ (0 < n → t.heldTokens ≤ s.pool) ∧ (∀ r rest, t.prog.queue = r :: rest → s.pool < t.heldTokens + r.n)
    ∧ (∀ q, (t.sq q).held
        = (s.sq q).held + (((s.prog.queue.take n).filter fun r => r.seq == q).map (·.n)).foldr (· + ·) 0)
    ∧ (∀ q, (∀ r ∈ s.prog.queue.take n, r.seq ≠ q) → t.sq q = s.sq q) ∧ Only [.prog] s t

/-- HELLO, QUEUE_CREATE, QUEUE_DELETE and QUEUE_RESET that pass every check (R88): the version in force is the lower of
the two sides' (R152, R154); a created pair has the addresses, sizes and vector of the entry and no history; a deleted
pair and its history are gone; a reset pair stands at head, tail and sequence of a new one, its owed replies counted in
the result, and the commands it still runs are unknown to its new history (R157). Everything outside the named parts stays as it was. -/
def Obligations.SessionCommandsTakeEffect : Prop :=
  (∀ (k : KCmd) (s : State), Passes helloCmd k s → ∃ t, exec (.hello k) s = .next t
    ∧ t.version? k.path = some (min (k.u16 16) 0x0302)
    ∧ (∀ p : Path, p.master ≠ k.master → t.version? p = s.version? p)
    ∧ (∃ r, DoneOk helloCmd k t 0 r ∧ fieldAt r 0 2 = min (k.u16 16) 0x0302)
    ∧ Only ([.fns, .intake, .ev] ++ replyParts) s t)
  ∧ (∀ (k : KCmd) (s : State), Passes queueCreateCmd k s → ∃ t, exec (.queueCreate k) s = .next t
    ∧ t.pair? k.master (k.u8 16) = some { cbase := k.u64 24, rbase := k.u64 32, cqLog := k.u8 17, rqLog := k.u8 18,
                                          vector := k.u16 20 }
    ∧ t.seqState (.queue k.master (k.u8 16)) = {}
    ∧ DoneOk queueCreateCmd k t 0 [] ∧ Only ([.pairs] ++ replyParts) s t)
  ∧ (∀ (k : KCmd) (s : State), Passes queueDeleteCmd k s → ∃ t, exec (.queueDelete k) s = .next t
    ∧ t.pair? k.master (k.u8 16) = none ∧ t.seqState (.queue k.master (k.u8 16)) = {}
    ∧ DoneOk queueDeleteCmd k t 0 [] ∧ Only ([.pairs, .intake] ++ replyParts) s t)
  ∧ ∀ (k : KCmd) (s : State) (p : QPair), Passes queueResetCmd k s → s.pair? k.master (k.u8 16) = some p →
    ∃ t, exec (.queueReset k) s = .next t
    ∧ (t.pair? k.master (k.u8 16)).map ringBlind
        = some (ringBlind { p with tail := 0, head := 0, rhead := 0, failed := false })
    ∧ (s.kym.heldReplies = [] → t.pair? k.master (k.u8 16)
        = some { p with tail := 0, head := 0, ridx := 0, phase := true, rhead := 0, unread := 0, failed := false })
    ∧ t.seqState (.queue k.master (k.u8 16)) = {}
    ∧ t.kym.running = s.kym.running.map (fun r : Running =>
        if r.cmd.path = Path.queue k.master (k.u8 16) then { r with forgotten := true } else r)
    ∧ DoneOk queueResetCmd k t 0 (toLE 4 (s.owed (.queue k.master (k.u8 16))))
    ∧ Only ([.pairs, .intake, .running] ++ replyParts) s t

/-- LEASE_ACQUIRE, LEASE_RELEASE, LEASE_BREAK and RESOURCE_ASSIGN that pass every check: an acquired lease is the
master's one lease on the resource, exclusive if asked for or exclusive before (R96-R99); a released one is gone; a break
that waits for no running command removes every other holder's lease on the resource, gives the breaker the exclusive lease
where it takes it, and counts the leases broken (R113, R158), and one that must wait leaves the leases alone and stands
recorded (R109, R111); an assignment moves the resource to its function and answers the function before (R159). No lease
on another resource, and no other assignment, changes. -/
def Obligations.LeaseCommandsTakeEffect : Prop :=
  (∀ (k : KCmd) (s : State), Passes leaseAcquireCmd k s → ∃ t, exec (.leaseAcquire k) s = .next t
    ∧ t.leaseOf (k.u32 16) k.master
        = some ⟨k.u32 16, k.master, k.u8 20 == 1 || s.holdsLease (k.u32 16) k.master .excl⟩
    ∧ (∀ r h, ¬(r = k.u32 16 ∧ h = k.master) → t.leaseOf r h = s.leaseOf r h)
    ∧ DoneOk leaseAcquireCmd k t (t.generation (k.u32 16))
        (toLE 1 (natOf (k.u8 20 == 1 || s.holdsLease (k.u32 16) k.master .excl)) ++ toLE 1 0
          ++ toLE 2 (t.holders (k.u32 16)).length)
    ∧ Only ([.leases] ++ replyParts) s t)
  ∧ (∀ (k : KCmd) (s : State), Passes leaseReleaseCmd k s → ∃ t, exec (.leaseRelease k) s = .next t
    ∧ t.leaseOf (k.u32 16) k.master = none
    ∧ (∀ r h, ¬(r = k.u32 16 ∧ h = k.master) → t.leaseOf r h = s.leaseOf r h)
    ∧ DoneOk leaseReleaseCmd k t (t.generation (k.u32 16)) [] ∧ Only ([.leases] ++ replyParts) s t)
  ∧ (∀ (k : KCmd) (s : State), Passes leaseBreakCmd k s → ∃ t, exec (.leaseBreak k) s = .next t
    ∧ if s.breakWaits (k.u32 16) k.master then
        t.kym.breaks.get [] (k.u32 16) = s.kym.breaks.get [] (k.u32 16) ++ [⟨k.master, bitOf (k.u8 20) 0, k.path, k.seq⟩]
        ∧ (∀ r, r ≠ k.u32 16 → t.kym.breaks.get? r = s.kym.breaks.get? r)
        ∧ Accepted leaseBreakCmd k (k.u32 16) t ∧ Only ([.breaks, .running] ++ replyParts) s t
      else
        (∀ h, h ≠ k.master → t.leaseOf (k.u32 16) h = none)
        ∧ t.leaseOf (k.u32 16) k.master
            = (if bitOf (k.u8 20) 0 then some ⟨k.u32 16, k.master, true⟩ else s.leaseOf (k.u32 16) k.master)
        ∧ (∀ r h, r ≠ k.u32 16 → t.leaseOf r h = s.leaseOf r h)
        ∧ DoneOk leaseBreakCmd k t (t.generation (k.u32 16)) (toLE 2 (s.victims (k.u32 16) k.master).length)
        ∧ Only ([.leases, .ev] ++ replyParts) s t)
  ∧ ∀ (k : KCmd) (s : State), Passes resourceAssignCmd k s → ∃ t, exec (.resourceAssign k) s = .next t
    ∧ t.assignedFn (k.u32 16) = k.u16 20
    ∧ (∀ r, r ≠ k.u32 16 → t.assignedFn r = s.assignedFn r)
    ∧ DoneOk resourceAssignCmd k t (t.generation (k.u32 16)) (toLE 2 (s.assignedFn (k.u32 16)))
    ∧ Only ([.assign, .host] ++ replyParts) s t

/-- ORDER_ARM, ORDER_CLEAR and ORDER_QUERY that pass every check: arming stores the 32 parameter bytes of the entry, keeps
the times triggered of an order already armed and starts them at zero otherwise (R183); clearing disarms the order and
takes back a pool reduction of SO_POOL_LIMIT; both move the generation by one (R104) and touch no other order; a query
answers armed, count and parameters and changes nothing. -/
def Obligations.OrderCommandsTakeEffect : Prop :=
  (∀ (k : KCmd) (s : State), Passes orderArmCmd k s → ∃ t, exec (.orderArm k) s = .next t
    ∧ (t.orders.get {} (refId (k.u32 16))).armed = true
    ∧ (t.orders.get {} (refId (k.u32 16))).params = (k.payload.drop 8).take 32
    ∧ (t.orders.get {} (refId (k.u32 16))).count
        = (if (s.orders.get {} (refId (k.u32 16))).armed then (s.orders.get {} (refId (k.u32 16))).count else 0)
    ∧ (∀ r, r ≠ refId (k.u32 16) → t.orders.get {} r = s.orders.get {} r)
    ∧ BumpsGen (k.u32 16) s t
    ∧ DoneOk orderArmCmd k t (t.generation (k.u32 16))
        (toLE 1 1 ++ toLE 3 0 ++ toLE 4 (t.orders.get {} (refId (k.u32 16))).count)
    ∧ Only ([.orders, .gens] ++ replyParts) s t)
  ∧ (∀ (k : KCmd) (s : State), Passes orderClearCmd k s → ∃ t, exec (.orderClear k) s = .next t
    ∧ (t.orders.get {} (refId (k.u32 16))).armed = false
    ∧ (t.orders.get {} (refId (k.u32 16))).triggered = false
    ∧ (orderCode (k.u32 16) = 5 → t.power.reduction = 0)
    ∧ (orderCode (k.u32 16) ≠ 5 → t.power = s.power)
    ∧ (∀ r, r ≠ refId (k.u32 16) → t.orders.get {} r = s.orders.get {} r)
    ∧ BumpsGen (k.u32 16) s t ∧ DoneOk orderClearCmd k t (t.generation (k.u32 16)) []
    ∧ Only ([.orders, .gens, .ev, .power] ++ replyParts) s t)
  ∧ ∀ (k : KCmd) (s : State), Passes orderQueryCmd k s → ∃ t, exec (.orderQuery k) s = .next t
    ∧ DoneOk orderQueryCmd k t (t.generation (k.u32 16))
        (toLE 1 (natOf (s.orders.get {} (refId (k.u32 16))).armed) ++ toLE 3 0
          ++ toLE 4 (s.orders.get {} (refId (k.u32 16))).count
          ++ fitBytes 32 (if (s.orders.get {} (refId (k.u32 16))).armed then (s.orders.get {} (refId (k.u32 16))).params
                          else []))
    ∧ Only replyParts s t

/-- EVENTQ_CONFIG, LOG_READ and COUNTERS_READ that pass every check: a queue newly enabled starts empty at index 0 and
phase 1 with the size, vector and base of the entry (R206, R207), and no other queue changes; LOG_READ answers the records
of the log from the sequence number asked for, at most as many as asked for, oldest first, and changes nothing;
COUNTERS_READ answers the sum of the lost-counters of classes 1 to 17 and, in the data, each of them, and changes
nothing. -/
def Obligations.EventCommandsTakeEffect : Prop :=
  (∀ (k : KCmd) (s : State), Passes eventqConfigCmd k s → ∃ t, exec (.eventqConfig k) s = .next t
    ∧ (t.queue k.master).enabled = bitOf (k.u8 16) 0
    ∧ (t.queue k.master).log2 = k.u8 17 ∧ (t.queue k.master).vector = k.u16 18 ∧ (t.queue k.master).base = k.u64 24
    ∧ ((s.queue k.master).enabled = false → bitOf (k.u8 16) 0 = true →
        (t.queue k.master).head = 0 ∧ (t.queue k.master).idx = 0 ∧ (t.queue k.master).held = 0
          ∧ (t.queue k.master).phase = true)
    ∧ (∀ f, f ≠ k.master → t.queue f = s.queue f)
    ∧ { t.ev with queues := {} } = { s.ev with queues := {} }
    ∧ DoneOk eventqConfigCmd k t 0 [] ∧ Only ([.ev] ++ replyParts) s t)
  ∧ (∀ (k : KCmd) (s : State), Passes logReadCmd k s → ∃ t, exec (.logRead k) s = .next t
    ∧ (∃ got : List Event,
        got = (s.ev.log.filter fun e => k.u64 24 ≤ e.seq).take (k.u32 16)
        ∧ (∃ r, DoneOk logReadCmd k t 0 r ∧ fieldAt r 8 4 = got.length)
        ∧ (got ≠ [] → Out.replyData k.path (got.flatMap fun e => recordBytes e false) ∈ t.out))
    ∧ Only replyParts s t)
  ∧ ∀ (k : KCmd) (s : State), Passes countersReadCmd k s → ∃ t, exec (.countersRead k) s = .next t
    ∧ (∃ r, DoneOk countersReadCmd k t 0 r
        ∧ fieldAt r 16 8 = ((s.lostCounters (k.u16 16)).foldl (· + ·) 0) % 2 ^ 64)
    ∧ Out.replyData k.path ((s.lostCounters (k.u16 16)).flatMap (toLE 8)) ∈ t.out
    ∧ Only replyParts s t

/-- POLDER_CREATE, POLDER_FREE, POLDER_RESIZE, POLDER_RESTRENGTH, POLDER_REKEY and POLDER_SET_SLUICE that pass every
check. A created polder has the attributes of its entry and pieces that were free, which are in use afterwards, and its
creator holds its exclusive lease (R143, R144, R295). Freeing and shrinking start with the invalidation of the
translations into what goes (R468), growing places the new pieces at once, and a conversion starts with the strength, or
key, asked for (R411, R956). All but the last are accepted and still run. Each moves the polder's generation by one
(R104); no other polder's table entry and no byte of memory changes. -/
def Obligations.PolderCommandsTakeEffect : Prop :=
  (∀ (k : KCmd) (s : State), Passes polderCreateCmd k s → ∃ t i p, exec (.polderCreate k) s = .next t
    ∧ s.newPolder k = some i ∧ t.polder? i = some p
    ∧ { p with place := {} } = askedPolder k
    ∧ (∀ c ∈ p.place.cells, bitOf (s.chan (c.2 / 0x1000)).used (c.2 % 0x1000) = false
        ∧ bitOf (t.chan (c.2 / 0x1000)).used (c.2 % 0x1000) = true)
    ∧ (∀ j, j ≠ i → t.polder? j = s.polder? j)
    ∧ t.leaseOf (polderUnit i) k.master = some ⟨polderUnit i, k.master, true⟩
    ∧ BumpsGen (polderUnit i) s t
    ∧ DoneOk polderCreateCmd k t (t.generation (polderUnit i)) (toLE 2 (polderUnit i) ++ toLE 2 0 ++ toLE 4 (k.u32 24))
    ∧ t.mem = { s.mem with polders := t.mem.polders, channels := t.mem.channels }
    ∧ Only ([.mem, .leases, .gens] ++ replyParts) s t)
  ∧ (∀ (k : KCmd) (s : State), Passes polderFreeCmd k s → ∃ t, exec (.polderFree k) s = .next t
    ∧ Invalidates (.polder (polderOf k) 0) (.command 0x1002 (k.u16 16)) s t
    ∧ BumpsGen (k.u16 16) s t ∧ Accepted polderFreeCmd k (k.u16 16) t
    ∧ Only ([.xlat, .running, .gens] ++ replyParts) s t)
  ∧ (∀ (k : KCmd) (s : State) (p : Polder), Passes polderResizeCmd k s → s.polder? (polderOf k) = some p →
    ∃ t, exec (.polderResize k) s = .next t
    ∧ BumpsGen (k.u16 16) s t ∧ Accepted polderResizeCmd k (k.u16 16) t
    ∧ if k.u32 24 < p.size then
        Invalidates (.polder (polderOf k) (k.u32 24 * 0x10000000)) (.command 0x1003 (k.u16 16)) s t
        ∧ Only ([.xlat, .running, .gens] ++ replyParts) s t
      else
        (∃ p', t.polder? (polderOf k) = some p' ∧ { p' with place := p.place } = p)
        ∧ (∀ j, j ≠ polderOf k → t.polder? j = s.polder? j)
        ∧ t.mem = { s.mem with polders := t.mem.polders, channels := t.mem.channels }
        ∧ Only ([.mem, .running, .gens] ++ replyParts) s t)
  ∧ (∀ (k : KCmd) (s : State) (p : Polder), Passes polderRestrengthCmd k s → s.polder? (polderOf k) = some p →
    ∃ t c, exec (.polderRestrength k) s = .next t
    ∧ t.polder? (polderOf k) = some { p with conv := some c }
    ∧ c.newStrength = k.u8 21 ∧ c.newKey = p.key ∧ c.rekey = false ∧ (p.conv = none → c.boundary = 0)
    ∧ (∀ j, j ≠ polderOf k → t.polder? j = s.polder? j)
    ∧ t.mem = { s.mem with polders := t.mem.polders }
    ∧ BumpsGen (k.u16 16) s t ∧ Accepted polderRestrengthCmd k (k.u16 16) t
    ∧ Only ([.mem, .running, .gens] ++ replyParts) s t)
  ∧ (∀ (k : KCmd) (s : State) (p : Polder), Passes polderRekeyCmd k s → s.polder? (polderOf k) = some p →
    s.isKeyless p = false → ∃ t c, exec (.polderRekey k) s = .next t
    ∧ t.polder? (polderOf k) = some { p with conv := some c }
    ∧ c.newKey = k.u8 23 ∧ c.newStrength = p.strength ∧ c.rekey = true ∧ (p.conv = none → c.boundary = 0)
    ∧ (∀ j, j ≠ polderOf k → t.polder? j = s.polder? j)
    ∧ t.mem = { s.mem with polders := t.mem.polders }
    ∧ BumpsGen (k.u16 16) s t ∧ Accepted polderRekeyCmd k (k.u16 16) t
    ∧ Only ([.mem, .running, .gens] ++ replyParts) s t)
  ∧ ∀ (k : KCmd) (s : State) (p : Polder), Passes polderSetSluiceCmd k s → s.polder? (polderOf k) = some p →
    ∃ t, exec (.polderSetSluice k) s = .next t
    ∧ t.polder? (polderOf k) = some { p with sluice := if k.u8 20 = 0xFF then none else some (k.u8 20) }
    ∧ (∀ j, j ≠ polderOf k → t.polder? j = s.polder? j)
    ∧ t.mem = { s.mem with polders := t.mem.polders }
    ∧ BumpsGen (k.u16 16) s t
    ∧ DoneOk polderSetSluiceCmd k t (t.generation (k.u16 16)) (toLE 1 (p.sluice.getD 0xFF))
    ∧ Only ([.mem, .gens] ++ replyParts) s t

/-- SLUICE_CONFIG, BASIN_PARTITION, BASIN_QUOTA and BASIN_FLUSH that pass every check. A sluice takes its tier, rate and
burst and keeps its credit, and rate 0 unconfigures it; a partition that switches a quarter writes the slice's lines back and
drops them at once, changes no other slice and no mode yet, and its end leaves every quarter of the mask in the mode asked for
and every other quarter as it was (R349, R351), while one that switches none is done; a quota is stored in its polder (R336); a
flush is walked by every slice with a cache quarter, and after it no line of the polder is dirty (R347). -/
def Obligations.SluiceAndBasinCommandsTakeEffect : Prop :=
  (∀ (k : KCmd) (s : State), Passes sluiceConfigCmd k s → ∃ t, exec (.sluiceConfig k) s = .next t
    ∧ t.mem.sluices.get? (refId (k.u32 16))
        = (if k.u32 24 = 0 then none
           else some { s.mem.sluices.get {} (refId (k.u32 16)) with tier := k.u8 20, rate := k.u32 24, burst := k.u32 28 })
    ∧ (∀ j, j ≠ refId (k.u32 16) → t.mem.sluices.get? j = s.mem.sluices.get? j)
    ∧ t.mem = { s.mem with sluices := t.mem.sluices }
    ∧ BumpsGen (k.u32 16) s t ∧ DoneOk sluiceConfigCmd k t (t.generation (k.u32 16)) []
    ∧ Only ([.mem, .gens] ++ replyParts) s t)
  ∧ (∀ (k : KCmd) (s : State), Passes basinPartitionCmd k s → ∃ t, exec (.basinPartition k) s = .next t
    ∧ (quartersToSwitch (s.slice (unitIndex (k.u16 16))) (k.u8 18) (k.u8 19) ≠ [] →
        t.slice (unitIndex (k.u16 16)) = { s.slice (unitIndex (k.u16 16)) with lines := [] })
    ∧ (quartersToSwitch (s.slice (unitIndex (k.u16 16))) (k.u8 18) (k.u8 19) = [] → t.basin = s.basin ∧ t.mem = s.mem
        ∧ ∃ r ∈ t.kym.running, r.cmd = k
          ∧ r.outcome = some { status := stOk, result := toLE 1 (15 - (s.slice (unitIndex (k.u16 16))).scratch) })
    ∧ (∀ n, n ≠ unitIndex (k.u16 16) → t.slice n = s.slice n)
    ∧ BumpsGen (k.u16 16) s t ∧ Accepted basinPartitionCmd k (k.u16 16) t
    ∧ Only ([.mem, .basin, .ev, .freeCtr, .running, .gens] ++ replyParts) s t)
  ∧ (∀ (s u : State) (r : Running) (a : Answers) (f : Finish), basinPartitionCmd.finish s r a = some (u, f) →
    r.outcome = none → f.status = stOk ∧ ∀ q, q < 4 → (u.slice (unitIndex r.ref)).isScratch q
      = if bitOf (r.cmd.u8 18) q then r.cmd.u8 19 == 1 else (s.slice (unitIndex r.ref)).isScratch q)
  ∧ (∀ (k : KCmd) (s : State) (p : Polder), Passes basinQuotaCmd k s → s.polder? (polderOf k) = some p →
    ∃ t, exec (.basinQuota k) s = .next t
    ∧ t.polder? (polderOf k) = some { p with quota := k.u32 24 }
    ∧ (∀ j, j ≠ polderOf k → t.polder? j = s.polder? j)
    ∧ t.mem = { s.mem with polders := t.mem.polders }
    ∧ BumpsGen (k.u16 16) s t ∧ DoneOk basinQuotaCmd k t (t.generation (k.u16 16)) []
    ∧ Only ([.mem, .gens] ++ replyParts) s t)
  ∧ ∀ (k : KCmd) (s : State), Passes basinFlushCmd k s → ∃ t, exec (.basinFlush k) s = .next t
    ∧ (∀ n, n < 64 → (t.slice n).walks
        = (s.slice n).walks + (if (s.slice n).cacheQuarters = 0 then 0 else 1))
    ∧ (∀ n, n < 64 → (s.slice n).cacheQuarters ≠ 0 → ∀ l ∈ (t.slice n).lines, l.polder = polderOf k → l.dirty = false)
    ∧ (∃ r ∈ t.kym.running, r.cmd = k ∧ r.outcome = some { status := stOk, result := toLE 8 (s.dirtyLines (polderOf k)) })
    ∧ Accepted basinFlushCmd k (k.u16 16) t
    ∧ Only ([.mem, .basin, .ev, .freeCtr, .running] ++ replyParts) s t

/-- SPACE_CREATE, SPACE_DESTROY, TRANSLATE_FILL, INVAL_RANGE, INVAL_TAG, APERTURE_MAP, APERTURE_UNMAP and
ACCESS_COUNT_SET that pass every check: a created space has its function and PASID and its creator's exclusive lease
(R143); a fill that answers a device-page request nobody waits for any more puts an entry into the shared cache that leads
the page to the polder offset of the entry, and ends the request (R441), and a failing one ends it and installs nothing;
SPACE_DESTROY and both invalidations leave no entry of their scope in the shared cache and wait for every engine in service
(R468-R470); an aperture slot is set to the run and rights of the entry, or emptied (R463); counting is switched, with its
threshold (R465). No other space, slot or entry of another table changes. -/
def Obligations.TranslationCommandsTakeEffect : Prop :=
  (∀ (k : KCmd) (s : State), Passes spaceCreateCmd k s → ∃ t, exec (.spaceCreate k) s = .next t
    ∧ t.space? (k.u16 16) = some { fn := k.u16 18, pasid := k.u32 20 }
    ∧ (∀ a, a ≠ k.u16 16 → t.space? a = s.space? a)
    ∧ t.leaseOf (astRef (k.u16 16)) k.master = some ⟨astRef (k.u16 16), k.master, true⟩
    ∧ t.xlat = { s.xlat with spaces := t.xlat.spaces }
    ∧ BumpsGen (astRef (k.u16 16)) s t ∧ DoneOk spaceCreateCmd k t (t.generation (astRef (k.u16 16))) []
    ∧ Only ([.xlat, .leases, .gens] ++ replyParts) s t)
  ∧ (∀ (k : KCmd) (s : State), Passes spaceDestroyCmd k s → ∃ t, exec (.spaceDestroy k) s = .next t
    ∧ Invalidates (.tag (k.u16 16)) (.command 0x1202 (astRef (k.u16 16))) s t
    ∧ BumpsGen (astRef (k.u16 16)) s t ∧ Accepted spaceDestroyCmd k (astRef (k.u16 16)) t
    ∧ Only ([.xlat, .running, .gens] ++ replyParts) s t)
  ∧ (∀ (k : KCmd) (s : State) (q : DrvReq), Passes translateFillCmd k s → s.driverRequest k = some q →
    s.xlat.jobs = {} → q.discard = false → q.hostPage = false → q.fault = none →
    ∃ t, exec (.translateFill k) s = .next t
    ∧ t.xlat.drv = s.xlat.drv.filter (fun r => r.id != q.id)
    ∧ (fillFails k = true → t.xlat.shared = s.xlat.shared)
    ∧ (fillFails k = false → isWindowField (k.u16 18) = false → k.u16 40 = 1 → k.u8 42 = 0 →
        ∃ e ∈ t.xlat.shared, e.covers (k.u16 16) (k.u64 24 / 4096) = true
          ∧ e.reach (k.u64 24) = .polder (unitIndex (k.u16 18)) (k.u64 32))
    ∧ DoneOk translateFillCmd k t (t.generation (astRef (k.u16 16))) []
    ∧ Only ([.xlat, .freeCtr] ++ replyParts) s t)
  ∧ (∀ (k : KCmd) (s : State), Passes invalRangeCmd k s → ∃ t, exec (.invalRange k) s = .next t
    ∧ Invalidates (.range (k.u16 16) (k.u64 24 / 4096) ((k.u64 24 + k.u64 32 + 4095) / 4096))
        (.command 0x1204 (astRef (k.u16 16))) s t
    ∧ Accepted invalRangeCmd k (astRef (k.u16 16)) t
    ∧ Only ([.xlat, .running] ++ replyParts) s t)
  ∧ (∀ (k : KCmd) (s : State), Passes invalTagCmd k s → ∃ t, exec (.invalTag k) s = .next t
    ∧ Invalidates (.tag (k.u16 16)) (.command 0x1205 (astRef (k.u16 16))) s t
    ∧ (∀ r ∈ t.xlat.drv, r.ast ≠ k.u16 16)
    ∧ Accepted invalTagCmd k (astRef (k.u16 16)) t
    ∧ Only ([.xlat, .running] ++ replyParts) s t)
  ∧ (∀ (k : KCmd) (s : State), Passes apertureMapCmd k s → ∃ t, exec (.apertureMap k) s = .next t
    ∧ t.xlat.apertures.get? (apertureKey (unitIndex (k.u16 16)) (k.u8 18))
        = some ⟨unitIndex (k.u16 20), k.u64 24, k.u64 32, bitOf (k.u8 22) 0, bitOf (k.u8 22) 1, bitOf (k.u8 22) 2⟩
    ∧ (∀ j, j ≠ apertureKey (unitIndex (k.u16 16)) (k.u8 18) → t.xlat.apertures.get? j = s.xlat.apertures.get? j)
    ∧ t.xlat = { s.xlat with apertures := t.xlat.apertures }
    ∧ BumpsGen (k.u16 16) s t ∧ DoneOk apertureMapCmd k t (t.generation (k.u16 16)) []
    ∧ Only ([.xlat, .gens] ++ replyParts) s t)
  ∧ (∀ (k : KCmd) (s : State), Passes apertureUnmapCmd k s → ∃ t, exec (.apertureUnmap k) s = .next t
    ∧ t.xlat.apertures.get? (apertureKey (unitIndex (k.u16 16)) (k.u8 18)) = none
    ∧ (∀ j, j ≠ apertureKey (unitIndex (k.u16 16)) (k.u8 18) → t.xlat.apertures.get? j = s.xlat.apertures.get? j)
    ∧ t.xlat = { s.xlat with apertures := t.xlat.apertures }
    ∧ BumpsGen (k.u16 16) s t ∧ DoneOk apertureUnmapCmd k t (t.generation (k.u16 16)) []
    ∧ Only ([.xlat, .gens] ++ replyParts) s t)
  ∧ ∀ (k : KCmd) (s : State) (x : Space), Passes accessCountSetCmd k s → s.space? (k.u16 16) = some x →
    ∃ t, exec (.accessCountSet k) s = .next t
    ∧ t.space? (k.u16 16) = some { x with counting := bitOf (k.u8 18) 0, threshold := k.u32 24 }
    ∧ (∀ a, a ≠ k.u16 16 → t.space? a = s.space? a)
    ∧ (bitOf (k.u8 18) 0 = false → ∀ h ∈ t.xlat.hot, h.ast ≠ k.u16 16)
    ∧ t.xlat = { s.xlat with spaces := t.xlat.spaces, hot := t.xlat.hot }
    ∧ BumpsGen (astRef (k.u16 16)) s t ∧ DoneOk accessCountSetCmd k t (t.generation (astRef (k.u16 16))) []
    ∧ Only ([.xlat, .gens] ++ replyParts) s t

/-- CHANNEL_OPEN, CHANNEL_CLOSE and CHANNEL_RESUME that pass every check: an opened channel is its opener's, empty, with
the ring of the entry (R482, R486); closing discards the descriptors not yet started, those of the ring not yet read among
them, and counts them (R168); resuming with
action 0 takes the halt away and starts its descriptor again from the first byte, with action 1 it counts that descriptor
as completed, and both answer the halt record (R517-R519). No other channel changes. -/
def Obligations.ChannelCommandsTakeEffect : Prop :=
  (∀ (k : KCmd) (s : State), Passes channelOpenCmd k s → ∃ t, exec (.channelOpen k) s = .next t
    ∧ t.pchan (chanKey k) = { kind := .host, fn := k.master, ast := k.u16 20, fault := bitOf (k.u8 19) 0, base := k.u64 24,
                              log2 := k.u8 32, vector := k.u16 22 }
    ∧ (∀ j, j ≠ chanKey k → t.pchan j = s.pchan j)
    ∧ DoneOk channelOpenCmd k t (t.generation (k.u16 16)) [] ∧ Only ([.pumps] ++ replyParts) s t)
  ∧ (∀ (k : KCmd) (s : State), Passes channelCloseCmd k s → ∃ t, exec (.channelClose k) s = .next t
    ∧ (t.pchan (chanKey k)).closing = some (((s.pchan (chanKey k)).descs.filter fun d => !d.dispatched && !d.completed).length
        + ((s.pchan (chanKey k)).tail + 2 ^ (s.pchan (chanKey k)).log2
            - (s.pchan (chanKey k)).next % 2 ^ (s.pchan (chanKey k)).log2) % 2 ^ (s.pchan (chanKey k)).log2)
    ∧ (t.pchan (chanKey k)).next = (s.pchan (chanKey k)).tail
    ∧ (t.pchan (chanKey k)).descs = (s.pchan (chanKey k)).descs.filter (fun d => d.dispatched || d.completed)
    ∧ (t.pchan (chanKey k)).halt = none
    ∧ (∀ j, j ≠ chanKey k → t.pchan j = s.pchan j)
    ∧ Accepted channelCloseCmd k (k.u16 16) t ∧ Only ([.pumps, .xlat, .running] ++ replyParts) s t)
  ∧ ∀ (k : KCmd) (s : State) (h : HaltRec) (d : PDesc), Passes channelResumeCmd k s →
    (s.pchan (chanKey k)).halt = some h → s.descAt (chanKey k) h.index = some d →
    ∃ t, exec (.channelResume k) s = .next t
    ∧ DoneOk channelResumeCmd k t (t.generation (k.u16 16)) (toLE 4 h.index ++ toLE 1 h.cause ++ toLE 3 0 ++ toLE 8 h.addr)
    ∧ (∀ j, j ≠ chanKey k → t.pchan j = s.pchan j)
    ∧ (k.u8 19 = 0 → (t.pchan (chanKey k)).halt = none
        ∧ (h.cause ≠ 0x13 → ∃ d', t.descAt (chanKey k) h.index = some d' ∧ d'.raw = d.raw ∧ d'.moved = 0
            ∧ d'.dispatched = false ∧ d'.reads = [] ∧ d'.writes = [] ∧ d'.pieces = [])
        ∧ Only ([.pumps, .xlat, .out, .ev, .freeCtr] ++ replyParts) s t)
    ∧ (k.u8 19 = 1 → d.tag = none → (parseDesc d.raw).cmpl = false →
        (t.pchan (chanKey k)).halt = none
        ∧ (t.pumps.engines.get {} (chanKey k / 16)).completed = (s.pumps.engines.get {} (chanKey k / 16)).completed + 1
        ∧ Only ([.pumps, .xlat] ++ replyParts) s t)

/-- CADDY_STAGE, CADDY_INFUSE, CADDY_BIND, CADDY_UNBIND and CADDY_EVICT that pass every check complete. A staging takes a free
slot of the directory and moves its generation; at its end a container that checks out stands there STAGED under its master's
exclusive lease (R143, R552). An infusion whose manifest still hashes as it was staged gives the caddy its home (R553, R560),
and one whose hash differs ends denied and leaves it without one (R169). A bind ends within the command, its outcome known;
that of a caddy without code, work polders, stream bindings and bind-time records gives it its clusters, sequencers, channels
and quarters, each cluster and sequencer naming the caddy, and leaves it BOUND (R481, R566). Unbinding frees them and leaves it
RESIDENT; an eviction gives up the home region, or the slot and its leases (Table 12-4). No other caddy changes. -/
def Obligations.CaddyCommandsTakeEffect : Prop :=
  (∀ (k : KCmd) (s : State), Passes caddyStageCmd k s → ∃ t i, exec (.caddyStage k) s = .next t
    ∧ s.stageSlot k = some i ∧ s.inf.caddies.get? i = none
    ∧ BumpsGen (caddyRef i) s t ∧ Accepted caddyStageCmd k (caddyRef i) t
    ∧ Only ([.running, .gens] ++ replyParts) s t)
  ∧ (∀ (s s' : State) (r : Running) (a : Answers) (h : Header) (m sig : Bytes),
    s.checkContainer (unitIndex (r.cmd.u16 18)) (r.cmd.u64 24) (r.cmd.u64 32) = (s', .inr (h, m, sig)) →
    ∃ u f, caddyStageCmd.finish s r a = some (u, f) ∧ f.status = stOk
    ∧ (∃ c, u.inf.caddies.get? (refId r.ref) = some c ∧ c.state = 1 ∧ c.manifest = m ∧ c.home = none)
    ∧ u.leaseOf r.ref r.cmd.master = some ⟨r.ref, r.cmd.master, true⟩)
  ∧ (∀ (k : KCmd) (s : State) (c : Caddy), Passes caddyInfuseCmd k s → s.inf.caddies.get? (caddyOf k) = some c →
    ∃ t c', exec (.caddyInfuse k) s = .next t
    ∧ t.inf.caddies.get? (caddyOf k) = some c' ∧ c'.state = c.state
    ∧ (∀ (s1 s2 : State) (a b : ReadOut), (taken s caddyInfuseCmd k).polderRead c.polder c.offset 256 false = (s1, a) →
        s1.polderRead c.polder (c.offset + 256) c.manifest.length false = (s2, b) → a.bad = none → b.bad = none →
        s2.infOpen ≠ [] →
        if manifestHash a.bytes b.bytes = c.hash then
          c'.home = some (unitIndex (k.u16 20), k.u64 24) ∧ c'.failure = none ∧ c'.written = 0
        else c'.home = none ∧ ∃ r ∈ t.kym.running, r.cmd = k ∧ r.outcome = some { status := stDenied })
    ∧ (∀ j, j ≠ caddyOf k → t.inf.caddies.get? j = s.inf.caddies.get? j)
    ∧ BumpsGen (k.u32 16) s t ∧ Accepted caddyInfuseCmd k (k.u32 16) t
    ∧ Only ([.inf, .xlat, .mem, .basin, .ev, .out, .freeCtr, .running, .gens] ++ replyParts) s t)
  ∧ (∀ (k : KCmd) (s : State) (c : Caddy), Passes caddyBindCmd k s → s.inf.caddies.get? (caddyOf k) = some c →
    ∃ t r, exec (.caddyBind k) s = .next t ∧ r ∈ t.kym.running ∧ r.cmd = k ∧ r.outcome.isSome = true
    ∧ Accepted caddyBindCmd k (k.u32 16) t
    ∧ (c.decl.works = [] → c.decl.bindings = [] → c.decl.quarters ≤ s.freeQuarters.length →
        c.records.filter (fun r => !r.early) = [] → c.firstSection 1 = none →
        r.outcome = some { status := stOk }
        ∧ (∃ c', t.inf.caddies.get? (caddyOf k) = some c' ∧ c'.state = 3
            ∧ c'.bound = some ⟨bindClusters k, bindSeqs k, s.freeChannels.take c.decl.chans,
                s.freeQuarters.take c.decl.quarters, [], k.master⟩)
        ∧ (∀ n ∈ bindClusters k, (t.port n).caddy = some (caddyOf k))
        ∧ (∀ q ∈ bindSeqs k, (t.sq q).caddy = some (caddyOf k))
        ∧ (∀ j, j ≠ caddyOf k → t.inf.caddies.get? j = s.inf.caddies.get? j)
        ∧ BumpsGen (k.u32 16) s t))
  ∧ (∀ (k : KCmd) (s : State) (c : Caddy) (b : Binding), Passes caddyUnbindCmd k s →
    s.inf.caddies.get? (caddyOf k) = some c → c.bound = some b →
    ∃ t c', exec (.caddyUnbind k) s = .next t
    ∧ t.inf.caddies.get? (caddyOf k) = some c' ∧ c'.state = 2 ∧ c'.bound = none ∧ c'.argument = none ∧ c'.home = c.home
    ∧ (∀ n ∈ b.clusters, (t.port n).caddy = none) ∧ (∀ q ∈ b.seqs, t.sq q = {})
    ∧ (∀ n ∈ b.chans, t.pchan n = {})
    ∧ (∀ j, j ≠ caddyOf k → t.inf.caddies.get? j = s.inf.caddies.get? j)
    ∧ DoneOk caddyUnbindCmd k t (t.generation (k.u32 16)) [])
  ∧ ∀ (k : KCmd) (s : State) (c : Caddy), Passes caddyEvictCmd k s → s.inf.caddies.get? (caddyOf k) = some c →
    ∃ t, exec (.caddyEvict k) s = .next t
    ∧ t.inf.caddies.get? (caddyOf k) = (if k.u8 20 = 0 then some { c with home := none, state := 1 } else none)
    ∧ (k.u8 20 = 1 → ∀ h, t.leaseOf (caddyRef (caddyOf k)) h = none)
    ∧ (k.u8 20 = 0 → t.kym.leases = s.kym.leases)
    ∧ (∀ j, j ≠ caddyOf k → t.inf.caddies.get? j = s.inf.caddies.get? j)
    ∧ BumpsGen (k.u32 16) s t ∧ DoneOk caddyEvictCmd k t (t.generation (k.u32 16)) []
    ∧ Only ([.inf, .ev, .leases, .gens] ++ replyParts) s t

/-- PROGRAM_START, PROGRAM_STOP, CONTEXT_MOVE, CLUSTER_BIND and CLUSTER_UNBIND that pass every check: a started program has
the next program id, its sequencers are armed for 20 µs later, and its caddy runs it under the declared envelope (R170,
R632); a stop marks every running sequencer of the caddy and stops every armed one (R171); a context move hands its job to
an Infuser unit, or to the queue for one (R529, R570), or ends when none is in service; a bound stream unit has the endpoint
of the entry, an unbound one has none (R720). -/
def Obligations.ProgramCommandsTakeEffect : Prop :=
  (∀ (k : KCmd) (s : State) (c : Caddy) (b : Binding) (h : Bytes), Passes programStartCmd k s →
    s.inf.caddies.get? (caddyOf k) = some c → c.bound = some b →
    (taken s programStartCmd k).codeHeader c = some h →
    ∃ t c', exec (.programStart k) s = .next t
    ∧ t.inf.caddies.get? (caddyOf k) = some c' ∧ c'.state = 4 ∧ c'.program = s.prog.nextProgram
    ∧ c'.envelope = c.decl.envelope ∧ c'.bound = some b
    ∧ (∀ j, j ≠ caddyOf k → t.inf.caddies.get? j = s.inf.caddies.get? j)
    ∧ (∀ q ∈ b.seqs, (t.sq q).state = .armed ∧ (t.sq q).program = s.prog.nextProgram
        ∧ (t.sq q).startAt = s.now + 20000 ∧ (t.sq q).store = (s.sq q).store ∧ (t.sq q).ops = [])
    ∧ (∀ q, q ∉ b.seqs → t.sq q = s.sq q)
    ∧ t.prog.nextProgram = (s.prog.nextProgram + 1) % 2 ^ 32
    ∧ BumpsGen (k.u32 16) s t
    ∧ DoneOk programStartCmd k t (t.generation (k.u32 16))
        (toLE 4 s.prog.nextProgram ++ toLE 2 c.decl.envelope ++ toLE 2 t.unreserved)
    ∧ Only ([.prog, .inf, .ev, .gens] ++ replyParts) s t)
  ∧ (∀ (k : KCmd) (s : State) (c : Caddy) (b : Binding), Passes programStopCmd k s →
    s.inf.caddies.get? (caddyOf k) = some c → c.bound = some b →
    ∃ t, exec (.programStop k) s = .next t
    ∧ (∀ q ∈ b.seqs, ((s.sq q).state = .running → (t.sq q).state = .running ∧ (t.sq q).stopping = true)
        ∧ ((s.sq q).state = .armed → (t.sq q).state = .stopped))
    ∧ (∀ q, q ∉ b.seqs → (t.sq q).state = (s.sq q).state)
    ∧ t.inf.caddies = s.inf.caddies
    ∧ BumpsGen (k.u32 16) s t ∧ Accepted programStopCmd k (k.u32 16) t
    ∧ Only ([.prog, .pumps, .xlat, .gath, .inf, .running, .gens] ++ replyParts) s t)
  ∧ (∀ (k : KCmd) (s : State), Passes contextMoveCmd k s → ∃ t, exec (.contextMove k) s = .next t
    ∧ (s.infOpen ≠ [] → ∃ j : InfJob, j.owner = .context (k.u16 20)
        ∧ j.raw = wardenDesc (k.u8 16) (k.u8 17) (polderAddr (unitIndex (k.u16 18)) (k.u64 24))
            (polderAddr (unitIndex (k.u16 20)) (k.u64 32)) (k.u64 40)
            (leftFrom (s.polder? (unitIndex (k.u16 20))) (k.u64 32))
        ∧ (j ∈ t.inf.queue ∨ ∃ u, j ∈ (t.infUnit u).jobs))
    ∧ (s.infOpen = [] → ∃ r ∈ t.kym.running, r.cmd = k
        ∧ r.outcome = some { status := stState, detail := stateDetail 1 2, result := toLE 8 0 })
    ∧ BumpsGen (k.u16 20) s t ∧ Accepted contextMoveCmd k (k.u16 20) t
    ∧ Only ([.inf, .xlat, .out, .ev, .freeCtr, .running, .gens] ++ replyParts) s t)
  ∧ (∀ (k : KCmd) (s : State), Passes clusterBindCmd k s → ∃ t, exec (.clusterBind k) s = .next t
    ∧ t.endpointOf (unitIndex (k.u16 16)) (k.u8 18) (k.u8 19) = some (endpointAsked k)
    ∧ (∀ c, c ≠ unitIndex (k.u16 16) → t.port c = s.port c)
    ∧ t.port (unitIndex (k.u16 16))
        = { s.port (unitIndex (k.u16 16)) with bindings := (t.port (unitIndex (k.u16 16))).bindings }
    ∧ BumpsGen (k.u16 16) s t ∧ DoneOk clusterBindCmd k t (t.generation (k.u16 16)) []
    ∧ Only ([.d2d, .gens] ++ replyParts) s t)
  ∧ ∀ (k : KCmd) (s : State), Passes clusterUnbindCmd k s → ∃ t, exec (.clusterUnbind k) s = .next t
    ∧ t.endpointOf (unitIndex (k.u16 16)) (k.u8 18) 0 = none
    ∧ t.endpointOf (unitIndex (k.u16 16)) (k.u8 18) 1 = none
    ∧ (∀ c, c ≠ unitIndex (k.u16 16) → (t.port c).bindings = (s.port c).bindings)
    ∧ BumpsGen (k.u16 16) s t ∧ DoneOk clusterUnbindCmd k t (t.generation (k.u16 16)) []

/-- PORT_TRAIN, PORT_QUALIFY, PORT_MARGIN, TRUNK_CONFIG and WINDOW_SET that pass every check. A training or a qualification
begins in DETECT (R774, R786), unless the port's reference was absent at the last cold boot (R251); a scan begins on the
lane of the entry, and a read of a held result leaves the port alone (R790, R793); the listed ports leave their trunks and
form the trunk of the entry, whose partner is that of a listed ACTIVE port, and the generation of every port that joins or
leaves it moves (R104, R796, R798); a window is set or disabled, and an outbound window that goes or changes is invalidated
first (R815). No other port, trunk or window changes. -/
def Obligations.LinkCommandsTakeEffect : Prop :=
  (∀ (k : KCmd) (s : State), Passes portTrainCmd k s → ∃ t, exec (.portTrain k) s = .next t
    ∧ (s.cannotTrain (unitIndex (k.u16 16)) = false → (t.lport (unitIndex (k.u16 16))).state = portDetect
        ∧ (t.lport (unitIndex (k.u16 16))).work = some (.train 0x1701))
    ∧ (s.cannotTrain (unitIndex (k.u16 16)) = true → t.link = s.link)
    ∧ (∀ p, p ≠ unitIndex (k.u16 16) → t.lport p = s.lport p)
    ∧ t.link = { s.link with ports := t.link.ports }
    ∧ BumpsGen (k.u16 16) s t ∧ Accepted portTrainCmd k (k.u16 16) t ∧ Only ([.link, .running, .gens] ++ replyParts) s t)
  ∧ (∀ (k : KCmd) (s : State), Passes portQualifyCmd k s → ∃ t, exec (.portQualify k) s = .next t
    ∧ (s.cannotTrain (unitIndex (k.u16 16)) = false → (t.lport (unitIndex (k.u16 16))).state = portDetect
        ∧ (t.lport (unitIndex (k.u16 16))).work = some .qualify)
    ∧ (s.cannotTrain (unitIndex (k.u16 16)) = true → t.link = s.link)
    ∧ (∀ p, p ≠ unitIndex (k.u16 16) → t.lport p = s.lport p)
    ∧ t.link = { s.link with ports := t.link.ports }
    ∧ BumpsGen (k.u16 16) s t ∧ Accepted portQualifyCmd k (k.u16 16) t ∧ Only ([.link, .running, .gens] ++ replyParts) s t)
  ∧ (∀ (k : KCmd) (s : State), Passes portMarginCmd k s → ∃ t, exec (.portMargin k) s = .next t
    ∧ (marginRead k = false → t.lport (unitIndex (k.u16 16))
        = { s.lport (unitIndex (k.u16 16)) with scanning := some (k.u8 18, s.follower (92 + unitIndex (k.u16 16))) })
    ∧ (marginRead k = true → t.link = s.link ∧ ∃ r ∈ t.kym.running, r.cmd = k ∧ r.outcome = some
        { status := stOk, data := (((s.lport (unitIndex (k.u16 16))).margins.get [] (k.u8 18)).drop (k.u32 20)).take (k.u32 24) })
    ∧ (∀ p, p ≠ unitIndex (k.u16 16) → t.lport p = s.lport p)
    ∧ t.link = { s.link with ports := t.link.ports }
    ∧ Accepted portMarginCmd k (k.u16 16) t ∧ Only ([.link, .running] ++ replyParts) s t)
  ∧ (∀ (k : KCmd) (s : State), Passes trunkConfigCmd k s → Bank.sorted s.link.trunks.cells = true →
    ∃ t, exec (.trunkConfig k) s = .next t
    ∧ t.link.trunks.get? (k.u8 18) = (if k.u64 24 = 0 then none else some (k.u64 24))
    ∧ (∀ n p, n ≠ k.u8 18 → p < 48 →
        bitOf (t.link.trunks.get 0 n) p = (bitOf (s.link.trunks.get 0 n) p && !bitOf (k.u64 24) p))
    ∧ (∀ p, (portsIn (k.u64 24)).find? s.portUp = some p →
        t.link.partners.get? (k.u8 18) = some (s.lport p).identity)
    ∧ t.link = { s.link with trunks := t.link.trunks, partners := t.link.partners }
    ∧ BumpsGens (k.u16 16 :: trunkConfigCmd.also s k) s t ∧ DoneOk trunkConfigCmd k t (t.generation (k.u16 16)) []
    ∧ Only ([.link, .gens] ++ replyParts) s t)
  ∧ (∀ (k : KCmd) (s : State), Passes windowSetCmd k s → isOutbound k = false → ∃ t, exec (.windowSet k) s = .next t
    ∧ t.cohort.inWin.get? (refId (k.u32 16)) = (if bitOf (k.u8 20) 0 then some (inWindowOf k) else none)
    ∧ (∀ n, n ≠ refId (k.u32 16) → t.cohort.inWin.get? n = s.cohort.inWin.get? n)
    ∧ t.cohort = { s.cohort with inWin := t.cohort.inWin }
    ∧ BumpsGen (k.u32 16) s t ∧ DoneOk windowSetCmd k t (t.generation (k.u32 16)) []
    ∧ Only ([.cohort, .gens] ++ replyParts) s t)
  ∧ ∀ (k : KCmd) (s : State), Passes windowSetCmd k s → isOutbound k = true → ∃ t, exec (.windowSet k) s = .next t
    ∧ t.cohort.outWin.get? (refId (k.u32 16)) = (if bitOf (k.u8 20) 0 then some (outWindowOf k) else none)
    ∧ (∀ n, n ≠ refId (k.u32 16) → t.cohort.outWin.get? n = s.cohort.outWin.get? n)
    ∧ t.cohort = { s.cohort with outWin := t.cohort.outWin }
    ∧ BumpsGen (k.u32 16) s t
    ∧ (s.cohort.outWin.get? (refId (k.u32 16)) = none → s.invalidating (k.u32 16) = false →
        DoneOk windowSetCmd k t (t.generation (k.u32 16)) [] ∧ t.xlat = s.xlat)
    ∧ (∀ w, s.cohort.outWin.get? (refId (k.u32 16)) = some w → bitOf (k.u8 20) 0 = false →
        Invalidates (.window (refId (k.u32 16))) (.command 0x1705 (k.u32 16)) s t
        ∧ ((List.range 48).filter s.holdsEntries ≠ [] → ∃ r ∈ t.kym.running, r.cmd = k ∧ r.outcome = none))
    ∧ Only ([.cohort, .xlat, .running, .gens] ++ replyParts) s t

/-- COHORT_CONFIG, COHORT_EPOCH and TIME_LEADER_SET that pass every check. A whole configuration, from a buffer or from
the pieces of the sideband, gives the device its member identifier, cohort size, blob and compatibility list, and answers the
first 8 bytes of its manifest digest (R807-R810); a piece that more follow is held and nothing else changes (R810); the epoch
is the value of the entry, and the one before is answered (R835); the leader, the port towards it and the tolerance are those
of the entry, and steering stops until the next estimate (R831). Windows, requests and everything outside the cohort stay. -/
def Obligations.CohortCommandsTakeEffect : Prop :=
  (∀ (k : KCmd) (s : State), Passes cohortConfigCmd k s → bitOf (k.u8 18) 0 = false →
    ∃ t n, exec (.cohortConfig k) s = .next t ∧ blobEnd s k = some n
    ∧ t.cohort = { s.cohort with member := k.u8 16, size := k.u8 17, blob := (cohortBytes s k).take n,
                                 compat := (cohortBytes s k).drop n, pieces := none }
    ∧ BumpsGen wardenUnit s t ∧ DoneOk cohortConfigCmd k t (t.generation wardenUnit) (t.ownManifest.take 8)
    ∧ Only ([.cohort, .gens] ++ replyParts) s t)
  ∧ (∀ (k : KCmd) (s : State), Passes cohortConfigCmd k s → bitOf (k.u8 18) 0 = true →
    ∃ t, exec (.cohortConfig k) s = .next t
    ∧ t.cohort = { s.cohort with pieces := some ⟨cohortBytes s k, k.u8 16, k.u8 17⟩ }
    ∧ BumpsGen wardenUnit s t ∧ DoneOk cohortConfigCmd k t (t.generation wardenUnit) (toLE 8 0)
    ∧ Only ([.cohort, .gens] ++ replyParts) s t)
  ∧ (∀ (k : KCmd) (s : State), Passes cohortEpochCmd k s → ∃ t, exec (.cohortEpoch k) s = .next t
    ∧ t.cohort = { s.cohort with epoch := BitVec.ofNat 64 (k.u64 24) }
    ∧ BumpsGen wardenUnit s t ∧ DoneOk cohortEpochCmd k t (t.generation wardenUnit) (toLE 8 s.cohort.epoch.toNat)
    ∧ Only ([.cohort, .gens] ++ replyParts) s t)
  ∧ ∀ (k : KCmd) (s : State), Passes timeLeaderSetCmd k s → ∃ t, exec (.timeLeaderSet k) s = .next t
    ∧ t.cohort = { s.cohort with leader := k.u8 16, leaderPort := k.u16 18, lastEdge := none, steering := false,
                                 correction := 0, tolerance := if k.u32 24 = 0 then 1000 else k.u32 24 }
    ∧ BumpsGen wardenUnit s t ∧ DoneOk timeLeaderSetCmd k t (t.generation wardenUnit) []
    ∧ Only ([.cohort, .gens] ++ replyParts) s t

/-- PATROL_CONFIG, REMAP_SCHEDULE, ISLAND_CLOCK_SET and SERVICE_ENTER that pass every check. The channel's walks take the
period and sluice of the entry, no other channel's do, and the walk in progress goes on (R302, R408); a row is appended to
the pending repair records of flash, and the reply owed counts the records of its stack (R256); the island's set clock is
that of the entry, none for zero, the reply gives the clock that then applies, and the generation of every unit of the island
moves (R104, R172, R197); the device enters SERVICE (R175). -/
def Obligations.UpkeepCommandsTakeEffect : Prop :=
  (∀ (k : KCmd) (s : State), Passes patrolConfigCmd k s → ∃ t, exec (.patrolConfig k) s = .next t
    ∧ t.chan (chanNumber (k.u16 16)) = { s.chan (chanNumber (k.u16 16)) with
        patrol := { (s.chan (chanNumber (k.u16 16))).patrol with
          period := k.u32 24, sluice := if k.u8 18 = 0xFF then none else some (k.u8 18) } }
    ∧ (∀ n, n ≠ chanNumber (k.u16 16) → t.chan n = s.chan n)
    ∧ t.mem = { s.mem with channels := t.mem.channels }
    ∧ BumpsGen (k.u16 16) s t ∧ DoneOk patrolConfigCmd k t (t.generation (k.u16 16)) []
    ∧ Only ([.mem, .gens] ++ replyParts) s t)
  ∧ (∀ (k : KCmd) (s : State), Passes remapScheduleCmd k s → ∃ t, exec (.remapSchedule k) s = .next t
    ∧ t.flash = { s.flash with repairs := s.flash.repairs ++ [⟨unitIndex (k.u16 16), k.u8 18, k.u32 20⟩] }
    ∧ (∃ r ∈ t.kym.running, r.cmd = k
        ∧ r.outcome = some { status := stOk, result := toLE 2 (t.repairsOf (unitIndex (k.u16 16) / 16)) })
    ∧ BumpsGen (k.u16 16) s t ∧ Accepted remapScheduleCmd k (k.u16 16) t
    ∧ Only ([.flash, .running, .gens] ++ replyParts) s t)
  ∧ (∀ (k : KCmd) (s : State), Passes islandClockSetCmd k s → ∃ t, exec (.islandClockSet k) s = .next t
    ∧ t.island (stampIsland (k.u16 16))
        = { s.island (stampIsland (k.u16 16)) with setMHz := if k.u16 18 = 0 then none else some (k.u16 18) }
    ∧ (∀ i, i ≠ stampIsland (k.u16 16) → t.island i = s.island i)
    ∧ t.clk = { s.clk with islands := t.clk.islands }
    ∧ BumpsGens (k.u16 16 :: islandClockSetCmd.also s k) s t
    ∧ DoneOk islandClockSetCmd k t (t.generation (k.u16 16)) (toLE 2 (t.islandTarget (stampIsland (k.u16 16))))
    ∧ Only ([.clk, .gens] ++ replyParts) s t)
  ∧ ∀ (k : KCmd) (s : State), Passes serviceEnterCmd k s → ∃ t, exec (.serviceEnter k) s = .next t
    ∧ t.boot = { s.boot with device := .service }
    ∧ (∀ r ∈ mandatoryStack ++ mandatoryDie, (t.orders.get {} (refId r)).armed = true)
    ∧ BumpsGen wardenUnit s t ∧ DoneOk serviceEnterCmd k t (t.generation wardenUnit) (toLE 1 0)
    ∧ Only ([.boot, .gens] ++ replyParts) s t

/-- POWER_QUERY, UNIT_QUERY, HEALTH_READ and TEST_RESULT that pass every check answer what the block holds and change
nothing but the reply (a gather engine's energy figure takes a free value, log entry 27): the pool, tokens and powers of
Table 4-14 with the telemetry buffer where one is named (R898); the unit's state, holders, function and the figures of its
kind (R1024); its five error counters (Table 4-16); the test result held for it (R977). -/
def Obligations.QueriesAnswer : Prop :=
  (∀ (k : KCmd) (s : State), Passes powerQueryCmd k s → ∃ t, exec (.powerQuery k) s = .next t
    ∧ (∃ r, DoneOk powerQueryCmd k t 0 r ∧ fieldAt r 0 2 = s.pool % 65536 ∧ fieldAt r 2 2 = s.reservedTokens % 65536
        ∧ fieldAt r 4 4 = s.lastPower 549 % 2 ^ 32 ∧ fieldAt r 16 8 = s.prog.tokenWaits % 2 ^ 64)
    ∧ (k.ind = true → Out.replyData k.path s.telemetry ∈ t.out)
    ∧ Only replyParts s t)
  ∧ (∀ (k : KCmd) (s : State), Passes unitQueryCmd k s → ∃ t, exec (.unitQuery k) s = .next t
    ∧ (∃ r, DoneOk unitQueryCmd k t 0 r ∧ fieldAt r 0 4 = s.reportedState (k.u32 16) % 2 ^ 32
        ∧ ((absent s (k.u32 16)).isSome = false →
            fieldAt r 4 2 = ((s.exclHolder (k.u32 16)).getD 0xFFFF) % 65536
            ∧ fieldAt r 6 2 = ((s.holders (k.u32 16)).filter fun l => !l.excl).length % 65536
            ∧ fieldAt r 8 2 = s.assignedFn (k.u32 16) % 65536
            ∧ r.drop 16 = s.queryKind (k.u32 16)))
    ∧ (unitClass (k.u32 16) ≠ 0x0A → t.freeCtr = s.freeCtr)
    ∧ Only ([.freeCtr] ++ replyParts) s t)
  ∧ (∀ (k : KCmd) (s : State), Passes healthReadCmd k s → ∃ t, exec (.healthRead k) s = .next t
    ∧ (∃ r, DoneOk healthReadCmd k t 0 r
        ∧ (∀ i, i < 4 → fieldAt r (8 * i) 8 = ((s.health (k.u16 16))[i]?).getD 0 % 2 ^ 64)
        ∧ fieldAt r 32 2 = ((s.health (k.u16 16))[4]?).getD 0 % 65536)
    ∧ Only replyParts s t)
  ∧ ∀ (k : KCmd) (s : State), Passes testResultCmd k s → ∃ t x, exec (.testResult k) s = .next t
    ∧ s.svc.results.get? (k.u16 16) = some x
    ∧ DoneOk testResultCmd k t 0 (toLE 1 x.verdict ++ toLE 1 x.test ++ toLE 2 0 ++ toLE 4 x.failCount ++ toLE 8 x.signature
        ++ toLE 8 x.expected ++ toLE 8 x.stamp)
    ∧ Only replyParts s t

/-- UNIT_DRAIN, UNIT_RETURN, FW_STAGE, FW_ACTIVATE and TEST_RUN that pass every check are accepted and move the
generation. A drained unit is DRAINING, a link port leaves ACTIVE and is OUT_OF_SERVICE at once (R945-R947); a returned unit
is RETURNING (R948); staging leaves the bank without a valid image until its end and the other bank alone (R960);
activation waits with the bank of the entry (R130); every unit of a test is UNDER_TEST and the test has begun
(R967-R970). -/
def Obligations.ServiceCommandsTakeEffect : Prop :=
  (∀ (k : KCmd) (s : State), Passes unitDrainCmd k s → ∃ t, exec (.unitDrain k) s = .next t
    ∧ BumpsGen (k.u16 16) s t ∧ Accepted unitDrainCmd k (k.u16 16) t
    ∧ (unitClass (k.u16 16) ≠ 0x05 → s.clockStopped (k.u16 16) = false → t.unitState (k.u16 16) = .draining)
    ∧ (unitClass (k.u16 16) = 0x05 → s.clockStopped (k.u16 16) = false → s.portUp (unitIndex (k.u16 16)) = true →
        s.cohort.reqs = [] → s.cohort.waiting = [] → s.cohort.relayed = [] → s.cohort.inbound = [] →
        t.unitState (k.u16 16) = .outOfService ∧ (t.lport (unitIndex (k.u16 16))).state = portOff)
    ∧ (0x08 ≤ unitClass (k.u16 16) → s.clockStopped (k.u16 16) = false →
        (∀ u, u ≠ k.u16 16 → t.unitState u = s.unitState u) ∧ Only ([.svc, .ev, .running, .gens] ++ replyParts) s t)
    ∧ ∀ p ∈ [Part.boot, .flash, .clk, .leases, .breaks, .assign, .sealed, .power, .host], p.kept s t)
  ∧ (∀ (k : KCmd) (s : State), Passes unitReturnCmd k s → ∃ t, exec (.unitReturn k) s = .next t
    ∧ BumpsGen (k.u16 16) s t ∧ Accepted unitReturnCmd k (k.u16 16) t
    ∧ (unitClass (k.u16 16) ≠ 0x07 → (unitClass (k.u16 16) = 0x05 → s.cannotTrain (unitIndex (k.u16 16)) = false) →
        t.unitState (k.u16 16) = .returning
          ∧ ∀ u, u ≠ k.u16 16 → t.svc.states.get? u = s.svc.states.get? u)
    ∧ (unitClass (k.u16 16) = 0x09 → (t.infUnit (unitIndex (k.u16 16))).jobs = []
        ∧ Only ([.svc, .ev, .inf, .running, .gens] ++ replyParts) s t)
    ∧ ∀ p ∈ [Part.boot, .flash, .clk, .leases, .breaks, .assign, .sealed, .power, .host], p.kept s t)
  ∧ (∀ (k : KCmd) (s : State), Passes fwStageCmd k s → ∃ t, exec (.fwStage k) s = .next t
    ∧ (∀ b, b ≤ 1 → t.image b = if b = k.u8 16 then { s.image b with valid := false } else s.image b)
    ∧ t.flash = { s.flash with bank0 := t.flash.bank0, bank1 := t.flash.bank1 }
    ∧ BumpsGen wardenUnit s t ∧ Accepted fwStageCmd k wardenUnit t ∧ Only ([.flash, .running, .gens] ++ replyParts) s t)
  ∧ (∀ (k : KCmd) (s : State), Passes fwActivateCmd k s → ∃ t, exec (.fwActivate k) s = .next t
    ∧ t.kym.activating = some (k.u8 16)
    ∧ wardenPart t.kym = wardenPart { s.kym with activating := some (k.u8 16) }
    ∧ BumpsGen wardenUnit s t ∧ Accepted fwActivateCmd k wardenUnit t ∧ Only ([.warden, .running, .gens] ++ replyParts) s t)
  ∧ ∀ (k : KCmd) (s : State), Passes testRunCmd k s → ∃ t, exec (.testRun k) s = .next t
    ∧ (∀ u ∈ testUnits (k.u8 18) (k.u16 16), t.unitState u = .underTest)
    ∧ (∀ u, u ∉ testUnits (k.u8 18) (k.u16 16) → t.svc.states.get? u = s.svc.states.get? u)
    ∧ t.svc.testing.get? (k.u16 16) = some (k.u8 18, s.now)
    ∧ (∀ u, u ≠ k.u16 16 → t.svc.testing.get? u = s.svc.testing.get? u)
    ∧ BumpsGen (k.u16 16) s t ∧ Accepted testRunCmd k (k.u16 16) t
    ∧ ∀ p ∈ [Part.boot, .flash, .clk, .leases, .breaks, .assign, .sealed, .power, .host], p.kept s t

/-- KEY_GENERATE, KEY_DESTROY, DEBUG_CHALLENGE and DEBUG_UNLOCK that pass every check complete. A generated slot is loaded
with a data key and a tweak key that differ, a destroyed one is empty, and no other slot changes (R911, R913); a challenge holds
a nonce of 32 bytes with its TBASE and answers it (R936); an unlock attempt empties every key slot and every cached line of the
Basin, ends the nonce and counts, a token that verifies sets the scope and any other leaves it and is answered ST_DENIED
(R360, R937, R938, R941). -/
def Obligations.SealedCommandsTakeEffect : Prop :=
  (∀ (k : KCmd) (s : State), Passes keyGenerateCmd k s → ∃ t, exec (.keyGenerate k) s = .next t
    ∧ (∃ key, t.sealed.slots.get? (k.u8 16) = some key ∧ key % 2 ^ 256 ≠ key / 2 ^ 256)
    ∧ (∀ n, n ≠ k.u8 16 → t.sealed.slots.get? n = s.sealed.slots.get? n)
    ∧ t.sealed = { s.sealed with slots := t.sealed.slots }
    ∧ BumpsGen sealedUnit s t ∧ DoneOk keyGenerateCmd k t (t.generation sealedUnit) []
    ∧ Only ([.sealed, .freeCtr, .gens] ++ replyParts) s t)
  ∧ (∀ (k : KCmd) (s : State), Passes keyDestroyCmd k s → ∃ t, exec (.keyDestroy k) s = .next t
    ∧ t.sealed.slots.has (k.u8 16) = false
    ∧ (∀ n, n ≠ k.u8 16 → t.sealed.slots.get? n = s.sealed.slots.get? n)
    ∧ t.sealed = { s.sealed with slots := t.sealed.slots }
    ∧ BumpsGen sealedUnit s t ∧ DoneOk keyDestroyCmd k t (t.generation sealedUnit) []
    ∧ Only ([.sealed, .gens] ++ replyParts) s t)
  ∧ (∀ (k : KCmd) (s : State), Passes debugChallengeCmd k s → ∃ t nonce, exec (.debugChallenge k) s = .next t
    ∧ nonce.length = 32 ∧ t.sealed = { s.sealed with nonce := some (nonce, s.now) }
    ∧ BumpsGen sealedUnit s t ∧ DoneOk debugChallengeCmd k t (t.generation sealedUnit) nonce
    ∧ Only ([.sealed, .freeCtr, .gens] ++ replyParts) s t)
  ∧ ∀ (k : KCmd) (s : State), Passes debugUnlockCmd k s → ∃ t, exec (.debugUnlock k) s = .next t
    ∧ t.sealed = { s.sealed with
        slots := {}, nonce := none, attempts := s.sealed.attempts + 1
        unlocked := if s.tokenOk k.ext then some (fieldAt k.ext 10 2 % 8) else s.sealed.unlocked }
    ∧ (∀ c ∈ t.basin.cells, c.2.lines = [] ∧ c.2.badWords = [])
    ∧ (∀ a, scratchBase ≤ a → a < scratchBase + 64 * 0xC00000 → ∀ c ∈ t.mem.cells, c.1 ≠ a)
    ∧ BumpsGen sealedUnit s t
    ∧ (s.tokenOk k.ext = true → DoneOk debugUnlockCmd k t (t.generation sealedUnit) [])
    ∧ (s.tokenOk k.ext = false →
        (t.seqState k.path).history.head? = some ⟨k.seq, debugUnlockCmd.opcode, some stDenied, 0⟩
        ∧ ∃ r, r.status = stDenied ∧ r.seq = k.seq ∧ r.opcode = debugUnlockCmd.opcode ∧ Delivered r t)
    ∧ t.mem = { s.mem with polders := t.mem.polders, cells := t.mem.cells }
    ∧ Only ([.sealed, .mem, .basin, .ev, .running, .gens] ++ replyParts) s t

/-- Accesses of near and board memory, served when they come. A narrow read of a sector whose own symbols are good, outside an
open entry, delivers the 32 stored bytes unpoisoned (R305, R372); a full read of a page with more wrong symbols than its code
corrects delivers poison, and counts it (Table 9-3, R376); one that hits neither an entry nor a wrong symbol delivers the stored
bytes. A write inside one sector of a page without an entry opens one that holds its bytes (R380); a whole-page write
stores its 4,096 bytes under the tail of their ciphertext and leaves no wrong symbol (R367, R388); an entry whose 2 µs have
passed is committed (R382, R386); a failed attempt of a board access is counted and, after four, a write is listed as poisoned
and a read is poison when it completes (R311-R313). Outside the bytes named, memory reads as before. -/
def Obligations.MemoryAccessesTakeEffect : Prop :=
  (∀ (s : State) (dpa n i : Nat) (p : Polder) (g : Page), Serves s n (.narrowRead dpa []) → dpa % 32 = 0 →
    chanOf dpa = some n → n < 128 → s.ownerOf dpa = some (i, p) → s.stackFailed (n / 16) = false → s.keyless p dpa = false →
    s.freshClear p (dpa / 4096) = false → s.entryOf n (dpa / 4096) = none → s.mem.pages.get? (dpa / 4096) = some g →
    State.blankBeat g (dpa % 4096 / 32) = false → (∀ q ∈ g.errs, inSector (dpa % 4096 / 32) q = false) →
    dpa / 32 ∉ (s.chan n).poison →
    ∃ t, exec (.narrowRead dpa []) s = .next t
    ∧ t.out = .data (s.mem.bytes dpa 32) false :: s.out ∧ ChansStand s t
    ∧ t.mem = { s.mem with sluices := t.mem.sluices, channels := t.mem.channels } ∧ Only [.mem, .out, .freeCtr] s t)
  ∧ (∀ (s : State) (page n i : Nat) (p : Polder) (g : Page), Serves s n (.fullRead page []) →
    chanOf (4096 * page) = some n → s.ownerOf (4096 * page) = some (i, p) → (n < 128 → s.stackFailed (n / 16) = false) →
    s.keyless p (4096 * page) = false → s.freshClear p page = false → s.entryOf n page = none →
    s.mem.pages.get? page = some g → State.unwritten g = false → (s.chan n).poison = [] → page ∉ (s.chan n).failedReads →
    ∃ t, exec (.fullRead page []) s = .next t
    ∧ (g.errs = [] → t.out = .data (s.mem.bytes (4096 * page) 4096) false :: s.out ∧ ChansStand s t
        ∧ t.mem = { s.mem with sluices := t.mem.sluices, channels := t.mem.channels })
    ∧ (g.errs.length > tOf g.strength → t.out = .data (List.replicate 4096 0) true :: s.out
        ∧ (t.chan n).uncorrectable = (s.chan n).uncorrectable + 1
        ∧ t.mem = { s.mem with sluices := t.mem.sluices, channels := t.mem.channels })
    ∧ (g.errs ≠ [] → g.errs.length ≤ tOf g.strength → ∃ bs, bs.length = 4096 ∧ t.out = .data bs false :: s.out)
    ∧ Only [.mem, .ev, .out, .freeCtr] s t)
  ∧ (∀ (s : State) (dpa n i : Nat) (p : Polder) (data : Bytes), data ≠ [] → dpa % 32 + data.length ≤ 32 →
    chanOf dpa = some n → s.ownerOf dpa = some (i, p) → s.keyless p dpa = false → s.crosses (chanIsland n) = false →
    s.takesWrites n = true → s.entryOf n (dpa / 4096) = none → (s.chan n).entries.length < 64 →
    ∃ t e, exec (.mergeWrite dpa data []) s = .next t
    ∧ t.entryOf n (dpa / 4096) = some e ∧ e.opened = s.now
    ∧ (∀ j, j < data.length → e.bytes.get? (dpa % 4096 + j) = data[j]?)
    ∧ (∀ m, m ≠ n → t.chan m = s.chan m)
    ∧ t.mem = { s.mem with channels := t.mem.channels } ∧ Only [.mem] s t)
  ∧ (∀ (s : State) (page n i : Nat) (p : Polder) (data : Bytes), Serves s n (.fullPageWrite page data) →
    (s.chan n).held = [] → data.length = 4096 →
    chanOf (4096 * page) = some n → s.ownerOf (4096 * page) = some (i, p) → s.keyless p (4096 * page) = false →
    ∃ t, exec (.fullPageWrite page data) s = .next t
    ∧ (∀ a, t.mem.byte a = if 4096 * page ≤ a ∧ a < 4096 * page + 4096 then (data[a - 4096 * page]?).getD 0
                           else s.mem.byte a)
    ∧ t.mem.pages.get? page = some { strength := (State.pageSide p (4096 * page)).1
                                     tail := encodeTail (State.pageSide p (4096 * page)).1 (s.cipherOf p page data) }
    ∧ (p.fresh = true → t.mem.valid.has page = true)
    ∧ t.entryOf n page = none ∧ Only [.mem, .freeCtr] s t)
  ∧ (∀ (s : State) (page n i : Nat) (p : Polder) (e : MergeEntry) (g : Page), s.entryOf n page = some e →
    e.opened + 2000 ≤ s.now → s.memWaits (4096 * page) = false → s.ownerOf (4096 * page) = some (i, p) →
    s.keyless p (4096 * page) = false → s.freshClear p page = false → s.mem.pages.get? page = some g → g.errs = [] →
    ∃ t, exec (.mergeCommit n page) s = .next t
    ∧ (∀ a, t.mem.byte a = if 4096 * page ≤ a ∧ a < 4096 * page + 4096
                           then (e.bytes.get? (a - 4096 * page)).getD (s.mem.byte a) else s.mem.byte a)
    ∧ t.entryOf n page = none ∧ Only [.mem, .freeCtr] s t)
  ∧ (∀ (s : State) (b page retries : Nat) (write : Bool), b < 12 → chanOf (4096 * page) = some (128 + b) →
    s.mem.trained.contains b = true → s.chanStopped (128 + b) = false → s.islandHalted (chanIsland (128 + b)) = false →
    ∃ t, exec (.boardAccessCrcFail b write page retries) s = .next t
    ∧ (retries < 4 → (t.chan (128 + b)).crcRetries = (s.chan (128 + b)).crcRetries + 1 ∧ Only [.mem] s t)
    ∧ (4 ≤ retries → write = true → page ∈ (t.chan (128 + b)).poison ∧ t.entryOf (128 + b) page = none)
    ∧ (4 ≤ retries → write = false → page ∈ (t.chan (128 + b)).failedReads
        ∧ (t.chan (128 + b)).uncorrectable = (s.chan (128 + b)).uncorrectable + 1)
    ∧ t.mem = { s.mem with channels := t.mem.channels, sluices := t.mem.sluices } ∧ Only [.mem, .ev] s t)
  ∧ ∀ (s : State) (page n i : Nat) (p : Polder), Serves s n (.fullRead page []) → chanOf (4096 * page) = some n →
    s.ownerOf (4096 * page) = some (i, p) → page ∈ (s.chan n).failedReads →
    (n < 128 → s.stackFailed (n / 16) = false) → s.keyless p (4096 * page) = false →
    ∃ t, exec (.fullRead page []) s = .next t
    ∧ t.out = .data (List.replicate 4096 0) true :: s.out ∧ page ∉ (t.chan n).failedReads ∧ Only [.mem, .out] s t

/-- Upkeep of memory. A patrol read of a page within what the code corrects leaves it without a wrong symbol and moves the
walk on (R404-R407); a due row gets the lowest free spare of its bank, recorded in the table and its copy (R415, R417); a
stack that stays silent for 1 ms, or reports a failure, is failed, and a device that served enters LOST (R271, R319, R323),
while one that boots goes on to step 16 (R272); at the end of a window every sluice gains its rate's bytes up to its burst
(R297); SO_PATROL_RATE triggers at its rate (R226); a restrength moves past the page at its boundary, whose tail is then of the
new strength where the polder has its key, and behind the last page the new strength holds (R411, R412). -/
def Obligations.MemoryUpkeepTakesEffect : Prop :=
  (∀ (s : State) (n page : Nat) (g : Page), s.patrolRuns n = true →
    (s.chan n).patrol.sluice = none → (s.chan n).patrol.last + s.patrolSpacing n ≤ s.now →
    s.nextPatrolPage n (s.chan n).patrol.next = some page → s.entryOf n page = none →
    (∀ o, s.ownerOf (4096 * page) = some o → s.freshClear o.2 page = false) → s.mem.pages.get? page = some g →
    State.unwritten g = false → (s.chan n).poison = [] → g.errs.length ≤ tOf g.strength →
    ∃ t, exec (.patrolPage n []) s = .next t
    ∧ t.mem.pages.get? page = some { g with errs := [] }
    ∧ (t.chan n).patrol.next = page + 1 ∧ (t.chan n).patrol.last = s.now
    ∧ (∀ a, t.mem.byte a = s.mem.byte a) ∧ Only [.mem, .ev, .freeCtr] s t)
  ∧ (∀ (s : State) (n bank row spare : Nat) (r : RowTrack),
    (s.chan n).rows.find? (fun x => x.bank == bank && x.row == row) = some r → n < 128 →
    (s.order (orderRef 3 (nearUnit n))).armed = true →
    fieldAt (s.order (orderRef 3 (nearUnit n))).params 0 2 ≤ r.count → r.last ≤ r.first + s.remapWindow n →
    s.chanLost n = false → s.islandHalted (chanIsland n) = false →
    ((s.chan n).remaps.any fun m => m.bank == bank && m.row == row) = false →
    (s.chan n).remaps.length < fieldAt (s.order (orderRef 3 (nearUnit n))).params 8 2 →
    freeSpare (s.chan n).remaps bank = some spare →
    ∃ t, exec (.liveRowRemap n bank row) s = .next t
    ∧ (t.chan n).remaps = (s.chan n).remaps ++ [⟨bank, row, spare⟩]
    ∧ t.mem.remapCopy.get? n = some ((s.chan n).remaps ++ [⟨bank, row, spare⟩])
    ∧ (t.order (orderRef 3 (nearUnit n))).count = (s.order (orderRef 3 (nearUnit n))).count + 1
    ∧ Only [.mem, .ev, .orders, .freeCtr] s t)
  ∧ (∀ (s : State) (stack : Nat), stack < 8 → s.stackFailed stack = false → 12 ≤ s.boot.step →
    (s.mem.nearStacks.get {} stack).lastReadout + 1000000 ≤ s.now →
    (homeIslands (stackUnit stack)).all s.islandHalted = false →
    ∃ t, exec (.stackReadoutSilent stack) s = .next t
    ∧ t.stackFailed stack = true ∧ (∀ j, j ≠ stack → t.mem.nearStacks.get {} j = s.mem.nearStacks.get {} j)
    ∧ (s.boot.device = .unconfigured ∨ s.boot.device = .service → t.boot = { s.boot with device := .lost })
    ∧ (s.boot.device = .booting → t.boot = s.boot)
    ∧ t.mem = { s.mem with nearStacks := t.mem.nearStacks } ∧ Only ([.mem, .boot, .warden, .running, .ev] ++ replyParts) s t)
  ∧ (∀ (s : State) (stack cause channel wire group : Nat), stack < 8 → s.stackFailed stack = false → 12 ≤ s.boot.step →
    channel / 16 = stack → (cause = 3 ∧ group = 1) ∨ (cause = 4 ∧ group = 0) → s.islandHalted (chanIsland channel) = false →
    ∃ t, exec (.stackFailure stack cause channel wire group) s = .next t
    ∧ t.stackFailed stack = true ∧ (∀ j, j ≠ stack → t.mem.nearStacks.get {} j = s.mem.nearStacks.get {} j)
    ∧ (s.boot.device = .unconfigured ∨ s.boot.device = .service → t.boot = { s.boot with device := .lost })
    ∧ (∀ n, t.chan n = if cause = 3 ∧ n = channel then { s.chan n with crcRetries := (s.chan n).crcRetries + 4 } else s.chan n)
    ∧ t.mem = { s.mem with nearStacks := t.mem.nearStacks, channels := t.mem.channels } ∧ Only ([.mem, .boot, .warden, .running, .ev] ++ replyParts) s t)
  ∧ (∀ (s : State) (waiting : List Nat), ∃ t, exec (.sluiceRedivision waiting) s = .next t
    ∧ (∀ i, (t.mem.sluices.get? i).map (fun q => (q.credit, q.used)) =
        (s.mem.sluices.get? i).map fun q => (min (q.credit + 10 * (q.rate : Int)) (1024 * (q.burst : Int)), ({} : Bank Nat)))
    ∧ t.mem = { s.mem with sluices := t.mem.sluices } ∧ Only [.mem] s t)
  ∧ (∀ (s : State) (n : Nat), n < 140 → (s.order (orderRef 4 (chanUnit n))).armed = true →
    (s.order (orderRef 4 (chanUnit n))).triggered = false → s.islandHalted (chanIsland n) = false →
    ∃ t, exec (.patrolRateWindow n) s = .next t
    ∧ (t.order (orderRef 4 (chanUnit n))).triggered
        = decide (fieldAt (s.order (orderRef 4 (chanUnit n))).params 0 4
            ≤ ((s.chan n).correctedAt.filter fun x => decide (s.now < x + 3600000000000)).length)
    ∧ t.mem = { s.mem with channels := t.mem.channels } ∧ Only [.mem, .orders, .ev] s t)
  ∧ ∀ (s : State) (i n page : Nat) (p : Polder) (c : Conversion) (g : Page), s.polder? i = some p → p.conv = some c →
    c.rekey = false → p.pageAt c.boundary = some page → s.memWaits (4096 * page) = false →
    s.runningOn 0x1004 (polderUnit i) = true → chanOf (4096 * page) = some n → s.entryOf n page = none →
    s.mem.pages.get? page = some g → State.unwritten g = false → g.errs = [] →
    ∃ t, exec (.conversionPage i) s = .next t
    ∧ (∃ x, x = s.cipherOf { p with strength := c.newStrength, key := c.newKey, conv := none } page
          (s.mem.bytes (4096 * page) 4096)
        ∧ t.mem.pages.get? page = some ⟨[], c.newStrength,
            if s.sealed.slots.has c.newKey then encodeTail c.newStrength x else g.tail⟩)
    ∧ t.polder? i = some (if (p.pageAt (c.boundary + 1)).isSome then { p with conv := some { c with boundary := c.boundary + 1 } }
                          else { p with conv := none, strength := c.newStrength, key := c.newKey })
    ∧ (∀ a, t.mem.byte a = s.mem.byte a) ∧ Only [.mem, .freeCtr] s t

/-- The Basin. A write to a held line changes that line, which is then dirty, and reaches no memory (R342); a read of a
held line delivers its bytes, poisoned where a word of them is, and reaches no memory (R333, R358). A fill of a line of a
polder without a Basin quota passes through and allocates nothing (R337); otherwise, where its set has a free way, the line
is held clean with the bytes read (R337, R400). -/
def Obligations.BasinAccessesTakeEffect : Prop :=
  (∀ (s : State) (r : BasinRequest) (bs : Bytes) (l : Line), (chanOf r.dpa).isSome = true → r.dpa % 128 + r.len ≤ 128 →
    r.faults = [] → r.write = some bs → s.crosses (homeSlice r.dpa) = false → s.caches (homeSlice r.dpa) = true →
    (s.slice (homeSlice r.dpa)).lookup (r.dpa / 128) = some l →
    ∃ t l', exec (.basinAccess r) s = .next t
    ∧ (t.slice (homeSlice r.dpa)).lookup (r.dpa / 128) = some l'
    ∧ l'.data = overlay l.data (r.dpa % 128) bs ∧ l'.dirty = true ∧ l'.polder = l.polder ∧ l'.way = l.way
    ∧ (∀ g, g ≠ r.dpa / 128 → (t.slice (homeSlice r.dpa)).lookup g = (s.slice (homeSlice r.dpa)).lookup g)
    ∧ (∀ n, n ≠ homeSlice r.dpa → t.slice n = s.slice n) ∧ Only [.basin] s t)
  ∧ (∀ (s : State) (r : BasinRequest) (l : Line), (chanOf r.dpa).isSome = true → r.dpa % 128 + r.len ≤ 128 →
    r.faults = [] → r.write = none → s.crosses (homeSlice r.dpa) = false → s.caches (homeSlice r.dpa) = true →
    (s.slice (homeSlice r.dpa)).lookup (r.dpa / 128) = some l → l.poison = [] →
    ∃ t, exec (.basinAccess r) s = .next t
    ∧ t.out = .data ((l.data.drop (r.dpa % 128)).take r.len) false :: s.out
    ∧ (∀ g, (t.slice (homeSlice r.dpa)).lookup g = (s.slice (homeSlice r.dpa)).lookup g)
    ∧ (∀ n, n ≠ homeSlice r.dpa → t.slice n = s.slice n) ∧ Only [.basin, .out] s t)
  ∧ ∀ (s : State) (who : Requester) (dpa n i : Nat) (p : Polder), dpa % 128 = 0 → chanOf dpa = some n →
    Serves s n (.lineFill who dpa) → s.ownerOf dpa = some (i, p) → s.caches (homeSlice dpa) = true →
    (s.slice (homeSlice dpa)).lookup (dpa / 128) = none → (s.fetchLine (dpa / 128)).2.bad = none →
    ∃ t, exec (.lineFill who dpa) s = .next t
    ∧ (∃ bs, bs = (s.fetchLine (dpa / 128)).2.bytes ∧ t.out = .data (bs.take 128) false :: s.out
        ∧ (p.quota = 0 → t.basin = s.basin)
        ∧ (∀ w, allocates who = true → (s.fetchLine (dpa / 128)).1.chooseWay (homeSlice dpa) (dpa / 128) i p = some (w, none) →
            (t.slice (homeSlice dpa)).lookup (dpa / 128)
              = some { tag := dpa / 128, way := w, polder := i, dirty := false, data := bs }))
    ∧ Only [.basin, .mem, .ev, .out, .freeCtr] s t

/-- Answers that reach the translation island while its clock and the host island's run and nothing waits to cross. An ATS completion ends its request; one for a request that an invalidation
overlapped, and one in error, install nothing (R446, R474), and a grant of one page leads that page to its translated
address (R431, R444). A PRG Response ends its page request, and a Response Failure stops PRI for the function (R453). An
invalidation request of the host drops the host entries of its range and waits for every engine in service (R475); an
engine's acknowledgement empties its local cache of overlapping entries, and the last one answers the host (R470, R471).
At the end of an access-count window every count is zero (R465); clearing ATS Enable drops the function's host entries and
takes effect with the handshake (R858); clearing PRI Enable ends the function's page requests (R859). -/
def Obligations.TranslationEventsTakeEffect : Prop :=
  (∀ (s : State) (ast page : Nat) (r : AtsReply) (q : AtsReq),
    s.crosses islHost = false → s.crosses islXlat = false →
    s.xlat.ats.find? (fun x => x.ast == ast && x.page == page) = some q → s.xlat.jobs = {} →
    ∃ t, exec (.atsCompletion ast page r) s = .next t
    ∧ t.xlat.ats = s.xlat.ats.filter (· != q)
    ∧ (q.discard = true ∨ r.error = true → t.xlat.shared = s.xlat.shared)
    ∧ (∀ g, r.error = false → q.discard = false → r.grants = [g] → g.page = page → g.count = 1 → g.r = true →
        ∃ e ∈ t.xlat.shared, e.covers ast page = true ∧ e.reach (4096 * page) = .host (alignDown g.hpa 4096))
    ∧ Only [.xlat, .freeCtr] s t)
  ∧ (∀ (s : State) (f group : Nat) (code : PrgCode) (p : PageReq),
    s.crosses islHost = false → s.crosses islXlat = false →
    s.xlat.pages.find? (fun x => x.fn == f && x.group == group) = some p →
    ∃ t, exec (.prgResponse f group code) s = .next t
    ∧ (code = .responseFailure → (t.hostFn f).priStopped = true ∧ t.xlat.pages = s.xlat.pages.filter (· != p)
        ∧ ∀ j, s.xlat.jobs.get? p.job = some j → ∃ j', t.xlat.jobs.get? p.job = some j' ∧ j'.parked = none
          ∧ (p.page, 2) ∈ j'.fails)
    ∧ (s.xlat.jobs = {} → t.xlat.pages = s.xlat.pages.filter (· != p))
    ∧ (code ≠ .responseFailure → Part.kept s t .host))
  ∧ (∀ (s : State) (f tag pasid page count : Nat), s.crosses islHost = false → s.crosses islXlat = false →
    (s.xlat.invals.filter fun v => match v.cause with | .ats _ _ => true | _ => false).length < 32 →
    ∃ t, exec (.atsInvalidateRequest f tag pasid page count) s = .next t
    ∧ Invalidates (.host f pasid page (page + count)) (.ats f tag) s t
    ∧ ((List.range 48).filter s.holdsEntries = [] → t.out = .invalidateComplete f tag :: s.out)
    ∧ Only [.xlat, .out] s t)
  ∧ (∀ (s : State) (i : Nat) (v : Inval), s.islandHalted islHost = false → s.crosses islXlat = false →
    s.xlat.invals.find? (fun v => v.waiting.contains i) = some v →
    (s.xlat.jobs.any fun _ j => j.engine == i && j.busy && j.got.any (s.overlaps v.scope)) = false →
    ∃ t, exec (.engineInvalAck i) s = .next t
    ∧ (i < 32 → ∀ e ∈ t.xlat.caches.get [] i, s.overlaps v.scope e = false)
    ∧ (∀ j, j ≠ i → t.xlat.caches.get [] j = s.xlat.caches.get [] j)
    ∧ (∀ f tag, v.cause = .ats f tag → (∀ x ∈ v.waiting, x = i) → t.out = .invalidateComplete f tag :: s.out)
    ∧ ((∃ x ∈ v.waiting, x ≠ i) → ∃ w ∈ t.xlat.invals,
        w.scope = v.scope ∧ w.cause = v.cause ∧ w.waiting = v.waiting.filter (· != i))
    ∧ Only [.xlat, .out, .host, .running] s t)
  ∧ (∀ s : State, s.crosses islXlat = false → ∃ t, exec .accessCountWindow s = .next t
    ∧ t.xlat = { s.xlat with hot := s.xlat.hot.map fun h => { h with count := 0, reported := false } } ∧ Only [.xlat] s t)
  ∧ (∀ (s : State) (f : Nat), s.barUp f = true → ∃ t, exec (.atsEnableClear f) s = .next t
    ∧ (∀ e ∈ t.xlat.shared, s.overlaps (.function f) e = false)
    ∧ ((List.range 48).filter s.holdsEntries ≠ [] → t.hostFn f = s.hostFn f
        ∧ ∃ v ∈ t.xlat.invals, v.scope = .function f ∧ v.cause = .atsDisabled f)
    ∧ ((List.range 48).filter s.holdsEntries = [] → s.xlat.invals = [] → (t.hostFn f).atsEnable = false)
    ∧ Only [.xlat, .host] s t)
  ∧ ∀ (s : State) (f : Nat), s.barUp f = true → ∃ t, exec (.priEnableClear f) s = .next t
    ∧ (t.hostFn f).priEnable = false ∧ (t.hostFn f).priStopped = false
    ∧ (∀ p ∈ t.xlat.pages, p.fn ≠ f)
    ∧ (∀ g, g ≠ f → t.hostFn g = s.hostFn g)
    ∧ Only [.xlat, .host, .out, .ev] s t

/-- Steps of a pump channel. A doorbell of the channel's function sets its tail (R489); read-ahead appends the ring entry
at the read index and moves it on (R494); a descriptor that cannot run halts the channel with its cause, index and address
(R511, R514), a no-operation is dispatched, and one with fence waits until every earlier one has completed (R498), both
said where no channel of the engine has a block to move in its turn (R479); a read
completion that is not the last is kept, and one that failed halts the channel with cause 0x11; a descriptor of which nothing
is under way completes, is counted, and the head passes every completed descriptor at the front (R521, R524); a timeout
counts as a failed read, and ends an ATS request (R446). -/
def Obligations.PumpStepsTakeEffect : Prop :=
  (∀ (s : State) (f e c : Nat) (v : BitVec 32), e < 32 → c < 16 → s.isHostChan (16 * e + c) = true →
    (s.pchan (16 * e + c)).fn = f → s.barUp f = true → s.crosses (156 + e / 4) = false →
    ∃ t, exec (.pumpDbWrite f e c v) s = .next t
    ∧ t.pchan (16 * e + c)
        = { s.pchan (16 * e + c) with tail := v.toNat % 65536 % 2 ^ (s.pchan (16 * e + c)).log2 }
    ∧ (∀ j, j ≠ 16 * e + c → t.pchan j = s.pchan j) ∧ Only [.pumps] s t)
  ∧ (∀ (s : State) (e c id h dva : Nat) (j : XJob) (entry : Bytes), e < 32 → c < 16 → s.isHostChan (16 * e + c) = true →
    (s.pchan (16 * e + c)).closing = none → (s.pchan (16 * e + c)).next ≠ (s.pchan (16 * e + c)).tail →
    ((s.pchan (16 * e + c)).descs.filter fun d => !d.dispatched && !d.completed).length < 8 → s.pumpRuns e = true →
    (s.pchan (16 * e + c)).ringJob = some id → s.xlat.jobs.get? id = some j → j.remark = false → j.status = .ready →
    s.place 0 (some id) 0 ((s.pchan (16 * e + c)).base + 64 * (s.pchan (16 * e + c)).next) = .host h dva →
    entry.length = 64 →
    ∃ t d, exec (.pumpReadAhead e c entry) s = .next t
    ∧ (t.pchan (16 * e + c)).descs = (s.pchan (16 * e + c)).descs ++ [d]
    ∧ d.raw = entry ∧ d.index = (s.pchan (16 * e + c)).next ∧ d.dispatched = false
    ∧ ((parseDesc entry).malformed entry true = true → d.fail = some (0x12, 0, 0))
    ∧ (t.pchan (16 * e + c)).next = ((s.pchan (16 * e + c)).next + 1) % 2 ^ (s.pchan (16 * e + c)).log2
    ∧ (∀ j, j ≠ 16 * e + c → t.pchan j = s.pchan j) ∧ Only [.pumps, .xlat, .out, .ev, .freeCtr] s t)
  ∧ (∀ (s : State) (e c : Nat) (d : PDesc), e < 32 → c < 16 → (s.pchan (16 * e + c)).halt = none → s.pumpRuns e = true →
    (s.pchan (16 * e + c)).descs.find? (fun d => !d.dispatched && !d.completed) = some d →
    ∃ t, exec (.pumpDispatch e c) s = .next t
    ∧ (∀ cause addr kind, d.fail = some (cause, addr, kind) → cause ≠ 0x12 → s.descAt (16 * e + c) d.index = some d →
        (t.pchan (16 * e + c)).halt = some ⟨cause, d.index, addr, kind⟩)
    ∧ (s.nextTurn e = none → d.fail = none → d.job = none → (parseDesc d.raw).type = 0 → (parseDesc d.raw).fence = false →
        d.reads = [] → d.writes = [] → d.pieces = [] →
        (∀ x ∈ (s.pchan (16 * e + c)).descs, x.index = d.index → x = d) →
        (t.pchan (16 * e + c)).descs
          = (s.pchan (16 * e + c)).descs.map (fun x => if x.index = d.index then { x with dispatched := true } else x)
        ∧ Only [.pumps] s t)
    ∧ (s.nextTurn e = none → d.fail = none → (parseDesc d.raw).fence = true →
        (∃ o ∈ (s.pchan (16 * e + c)).descs.takeWhile (fun o => o.index != d.index), o.completed = false) → t = s))
  ∧ (∀ (s : State) (e c index tile : Nat) (data : Option Bytes) (d : PDesc) (p : Piece),
    s.crosses islHost = false → s.crosses (156 + e / 4) = false →
    s.descAt (16 * e + c) index = some d → d.pieces.find? (fun p => p.tile == tile) = some p →
    ∃ t, exec (.hostReadCompletion e c index tile data) s = .next t
    ∧ (∀ bs, s.nextTurn e = none → data = some bs → p.write = false → 1 < d.pieces.length →
        (∃ d', t.descAt (16 * e + c) index = some d' ∧ d'.data.get? tile = some (fitBytes p.len bs)
          ∧ d'.pieces.length = d.pieces.length - 1)
        ∧ Only [.pumps] s t)
    ∧ (data = none → (parseDesc d.raw).isTx = true → (s.pchan (16 * e + c)).halt = none →
        ∃ h, (t.pchan (16 * e + c)).halt = some h ∧ h.cause = 0x11 ∧ h.index = index))
  ∧ (∀ (s : State) (e c index : Nat) (d : PDesc), s.crosses (156 + e / 4) = false → (s.pchan (16 * e + c)).words = [] →
    s.descAt (16 * e + c) index = some d → s.descDone (16 * e + c) d = true → d.tag = none →
    (parseDesc d.raw).cmpl = false →
    ∃ t, exec (.descriptorComplete e c index) s = .next t
    ∧ (t.pumps.engines.get {} ((16 * e + c) / 16)).completed = (s.pumps.engines.get {} ((16 * e + c) / 16)).completed + 1
    ∧ (t.pumps.engines.get {} ((16 * e + c) / 16)).quiet
        = (s.pumps.engines.get {} ((16 * e + c) / 16)).quiet + d.quiet
    ∧ (∀ d', (t.pchan (16 * e + c)).descs.head? = some d' → d'.completed = false)
    ∧ (∀ j, j ≠ 16 * e + c → t.pchan j = s.pchan j) ∧ Only [.pumps, .xlat] s t)
  ∧ (∀ (s : State) (e c index tile : Nat) (d : PDesc) (p : Piece), s.islandHalted islHost = false →
    s.crosses (156 + e / 4) = false → s.descAt (16 * e + c) index = some d →
    d.pieces.find? (fun p => p.tile == tile) = some p → (parseDesc d.raw).isTx = true →
    (s.pchan (16 * e + c)).halt = none →
    ∃ t h, exec (.completionTimeout (.read e c index tile)) s = .next t
    ∧ (t.pchan (16 * e + c)).halt = some h ∧ h.cause = 0x11 ∧ h.index = index)
  ∧ ∀ (s : State) (ast page : Nat) (q : AtsReq), s.islandHalted islHost = false → s.crosses islXlat = false →
    s.xlat.ats.find? (fun x => x.ast == ast && x.page == page) = some q → s.xlat.jobs = {} →
    ∃ t, exec (.completionTimeout (.ats ast page)) s = .next t
    ∧ t.xlat = { s.xlat with ats := s.xlat.ats.filter (· != q) } ∧ Only [.xlat] s t

/-- The reset pins. PWR_OK, and COLD_RST_N held for 1 µs or longer, reset everything outside flash: what is not a pin, the
TAP or the model's own stands as in the reset state, and the device is COLD, or BOOTING with TBASE at zero once PWR_OK is
asserted and COLD_RST_N released (R45, R236, R238, R261, R265, R1012). PERST_N held as long returns boot to step 2 and
keeps TBASE, the events not yet written, the generations, the log, the reserved seed and flash (R241, R264, R266); its
release changes only the pin. A pulse below 200 ns does nothing (R996). -/
def Obligations.ResetPinsAct : Prop :=
  (∀ s : State, s.boot.pwrOk = false → ∃ t, exec .pwrOkAssert s = .next t ∧ ColdReset s t
    ∧ t.boot = { pwrOk := true, coldRst := s.boot.coldRst, perst := s.boot.perst,
                 device := if s.boot.coldRst then .cold else .booting, spiHiZ := s.boot.coldRst }
    ∧ t.host = { tapReset := true })
  ∧ (∀ s : State, ∃ t, exec .pwrOkDeassert s = .next t ∧ ColdReset s t
    ∧ t.boot = { pwrOk := false, coldRst := s.boot.coldRst, perst := s.boot.perst, device := .cold, spiHiZ := s.boot.coldRst })
  ∧ (∀ (s : State) (ns : Nat), s.boot.coldRst = false → 1000 ≤ ns → ∃ t, exec (.coldRstNAssert ns) s = .next t
    ∧ ColdReset s t
    ∧ t.boot = { pwrOk := s.boot.pwrOk, coldRst := true, perst := s.boot.perst, device := .cold, spiHiZ := true
                 lastReset := if s.boot.pwrOk then 1 else 0 })
  ∧ (∀ s : State, s.boot.coldRst = true → ∃ t, exec .coldRstNRelease s = .next t ∧ ColdReset s t
    ∧ t.boot = { pwrOk := s.boot.pwrOk, coldRst := false, perst := s.boot.perst
                 device := if s.boot.pwrOk then .booting else .cold, lastReset := s.boot.lastReset })
  ∧ (∀ (s : State) (ns : Nat), s.boot.perst = false → s.boot.device ≠ .cold → 1000 ≤ ns →
    ∃ t, exec (.perstNAssert ns) s = .next t
    ∧ t.boot.perst = true ∧ t.boot.device = .booting ∧ t.boot.step = min s.boot.step 1 ∧ t.boot.selfRefresh = true
    ∧ t.boot.lastReset = 2 ∧ t.clk.tbase = s.clk.tbase ∧ t.flash = s.flash
    ∧ t.ev.nextSeq = s.ev.nextSeq ∧ t.ev.held = s.ev.held ∧ t.ev.log = s.ev.log
    ∧ (∀ r, t.generation r = s.generation r) ∧ t.sealed.seed = s.sealed.seed ∧ t.sealed.slots = {}
    ∧ t.kym.pairs = {} ∧ t.kym.leases = [] ∧ t.kym.running = [] ∧ t.orders = {} ∧ t.basin = {} ∧ t.xlat = {}
    ∧ t.mem = { reserved := s.mem.reserved, area := s.mem.area } ∧ t.pending = s.pending)
  ∧ (∀ s : State, ∃ t, exec .perstNRelease s = .next t ∧ t.boot = { s.boot with perst := false } ∧ Only [.boot] s t)
  ∧ ∀ (s : State) (ns : Nat), ns < 200 →
    (∃ t, exec (.coldRstNAssert ns) s = .next t ∧ Only [.freeCtr] s t)
    ∧ ∃ t, exec (.perstNAssert ns) s = .next t ∧ Only [.freeCtr] s t

/-- Boot. The warden clock starts when its DPLL locks (R242). A step of Table 6-1 that may end ends: boot goes on with the
next: step 3 locks the clocks of the host island and the power manager, step 11 every other (R36), step 4 brings the
sideband up, steps 6 and 10 let configuration space answer with Request Retry Status and then
fully (R244), step 7 derives the reserved key and on a cold boot draws its seed (R916, R917), step 8 takes the bank of the
boot record, the other where that does not verify, and fails where neither does (R252, R253), step 9 of a cold boot advances
the epoch and restarts every generation counter (R103), step 12 leaves no near page written (R243), step 15 records the
quadrants without reference (R251), and step 16 leaves the device UNCONFIGURED, or LOST where a stack failed (R246, R272).
A configuration request is answered as the step says (R244), and a link that trains again changes its rate and width
alone (R841). -/
def Obligations.BootTakesEffect : Prop :=
  (∀ s : State, s.boot.device ≠ .cold → ∃ t, exec .wardenDpllLock s = .next t
    ∧ t.clk = { s.clk with wardenLocked := true } ∧ Only [.clk] s t)
  ∧ (∀ (s : State) (r : BootReport), s.stepMayEnd (s.boot.step + 1) = true → s.sealed.resets = 0 →
    ∃ t, exec (.bootStepEnd r) s = .next t
    ∧ t.pending = s.pending
    ∧ (t.boot.failStep = 0 →
        t.boot.step = s.boot.step + 1 ∧ t.boot.coldDone = max s.boot.coldDone (s.boot.step + 1))
    ∧ (s.boot.step + 1 ∈ [1, 2, 3, 5, 11] → Only [.boot, .clk] s t
        ∧ t.boot = { s.boot with step := s.boot.step + 1, coldDone := max s.boot.coldDone (s.boot.step + 1) })
    ∧ (s.boot.step + 1 ∈ [1, 2, 5] → t.clk = s.clk)
    ∧ (s.boot.step = 2 → t.dpllLocked islHost = true ∧ t.dpllLocked islPmgr = true
        ∧ ∀ i, i ∉ [islHost, islPmgr] → t.dpllLocked i = s.dpllLocked i)
    ∧ (s.boot.step = 10 → ∀ i, i < 185 → i ≠ islWarden → t.dpllLocked i = true)
    ∧ (s.boot.step = 3 → t.boot.smbusUp = true ∧ Only [.boot] s t)
    ∧ (s.boot.step = 5 → t.boot.config = .rrs ∧ Only [.boot] s t)
    ∧ (s.boot.step = 6 → r.entropyOk = true → t.sealed.reservedKey = t.sealed.seed.map deriveReserved
        ∧ (if s.boot.coldDone < 7 then t.sealed.seed.isSome = true else t.sealed.seed = s.sealed.seed)
        ∧ Only [.boot, .sealed, .svc, .freeCtr] s t)
    ∧ (s.boot.step = 6 → r.entropyOk = false → t.boot.failStep = 7 ∧ t.boot.config = .pfOnly ∧ Only [.boot] s t)
    ∧ (s.boot.step = 7 → Only [.boot] s t
        ∧ (s.bankPasses s.flash.bankPtr = true → t.boot.bank = s.flash.bankPtr ∧ t.boot.fallback = false)
        ∧ (s.bankPasses s.flash.bankPtr = false → s.bankPasses (1 - s.flash.bankPtr) = true →
            t.boot.bank = 1 - s.flash.bankPtr ∧ t.boot.fallback = true)
        ∧ (s.bankPasses s.flash.bankPtr = false → s.bankPasses (1 - s.flash.bankPtr) = false →
            t.boot.failStep = 8 ∧ t.boot.config = .pfOnly))
    ∧ (s.boot.step = 8 → s.boot.coldDone < 9 → 
        t.flash = { s.flash with epoch := s.flash.epoch + 1, recordWrites := s.flash.recordWrites + 1 }
        ∧ (∀ x, t.generation x = (s.flash.epoch + 1).toNat * 2 ^ 40 + 1) ∧ Only [.boot, .flash, .gens] s t)
    ∧ (s.boot.step = 9 → t.boot.config = .full ∧ Only [.boot] s t)
    ∧ (s.boot.step = 11 → (∀ c ∈ t.mem.pages.cells, boardBase ≤ 4096 * c.1) ∧ t.flash = { s.flash with repairs := [] })
    ∧ (s.boot.step = 14 → Only [.boot, .link, .ev, .clk] s t
        ∧ (∀ q khz, q < 4 → (q, khz) ∈ r.badRefclk → q ∈ t.link.noRef
            ∧ ∀ i, islandReference i = .link q → t.clk.locked.has i = false))
    ∧ (s.boot.step = 15 → (t.boot.lostAtBoot = true ↔ ∃ k, k < 8 ∧ s.stackFailed k = true)
        ∧ t.boot.device = (if t.boot.lostAtBoot then .lost else .unconfigured) ∧ Only [.boot] s t))
  ∧ (∀ (s : State) (f : Nat) (c : ConfigAccess), s.islandHalted islHost = false → s.boot.config = .rrs →
    ∃ t, exec (.configRequest f c) s = .next t ∧ t.out = .config true 0 :: s.out ∧ Only [.out] s t)
  ∧ ∀ (s : State) (f : Nat) (x : ConfigField), s.islandHalted islHost = false → s.boot.config = .full →
    s.functionExists f = true →
    (∃ t, exec (.configRequest f (.field x)) s = .next t ∧ t.out = .config false (s.configField f x) :: s.out
      ∧ Only [.out] s t)
    ∧ (∃ t, exec (.configRequest f (.read 0)) s = .next t
        ∧ t.out = .config false (0x1F3D + 0x10000 * if f = 0 then 0x4D32 else 0x4D33) :: s.out ∧ Only [.out] s t)
    ∧ (∃ t, exec (.configRequest f .atsEnable) s = .next t ∧ (t.hostFn f).atsEnable = true
        ∧ (∀ g, g ≠ f → t.hostFn g = s.hostFn g) ∧ Only [.host] s t)
    ∧ ∀ gen lanes, ∃ t, exec (.configRequest f (.retrain gen lanes)) s = .next t
        ∧ t.host = { s.host with pcie := trainPcie gen lanes } ∧ Only [.host] s t

/-- The doorbells and the admin pair of a function whose BAR0 answers. A command doorbell moves the tail of an existing pair
and marks its position pending, a reply doorbell gives entries back, at most those unread (R73, R1035); the urgent doorbell
submits the urgent command, or, while its command is taken and not final, sets overrun (R116); setting aq_enable with sizes in range latches the admin
pair, empty and at phase 1, and clearing it takes the pair away while accepted commands stay (R69, R1033). No other pair
changes. -/
def Obligations.DoorbellsTakeEffect : Prop :=
  (∀ (s : State) (f q : Nat) (v : BitVec 32) (p : QPair), s.barUp f = true → q < 4 → s.pair? f q = some p →
    ∃ t, exec (.kymCqDbWrite f q v) s = .next t
    ∧ t.pair? f q = some { p with tail := v.toNat % 4096 % 2 ^ p.cqLog }
    ∧ t.kym.rung.has (5 * f + q) = true
    ∧ (∀ i, i ≠ 5 * f + q → t.kym.rung.get? i = s.kym.rung.get? i)
    ∧ (∀ g r, 4 * g + r ≠ 4 * f + q → t.pair? g r = s.pair? g r)
    ∧ t.kym = { s.kym with pairs := t.kym.pairs, rung := t.kym.rung } ∧ Only [.pairs, .intake] s t)
  ∧ (∀ (s : State) (f q : Nat) (v : BitVec 32), (s.pair? f q = none ∨ 4 ≤ q) →
    ∃ t, exec (.kymCqDbWrite f q v) s = .next t ∧ t = s)
  ∧ (∀ (s : State) (f q : Nat) (v : BitVec 32) (p : QPair), s.barUp f = true → q < 4 → s.pair? f q = some p →
    (p.ridx + 2 ^ p.rqLog - v.toNat % 4096 % 2 ^ p.rqLog) % 2 ^ p.rqLog ≤ p.unread →
    ∃ t, exec (.kymRqDbWrite f q v) s = .next t
    ∧ t.pair? f q = some { p with rhead := v.toNat % 4096 % 2 ^ p.rqLog
                                  unread := (p.ridx + 2 ^ p.rqLog - v.toNat % 4096 % 2 ^ p.rqLog) % 2 ^ p.rqLog }
    ∧ (∀ g r, 4 * g + r ≠ 4 * f + q → t.pair? g r = s.pair? g r) ∧ t.kym = { s.kym with pairs := t.kym.pairs }
    ∧ Only [.pairs, .rings] s t)
  ∧ (∀ (s : State) (f : Nat) (v : BitVec 32), s.barUp f = true → ∃ t, exec (.kymUrgDbWrite f v) s = .next t
    ∧ ((s.kymFn f).urgBusy = false → t.kymFn f = s.kymFn f ∧ (v.toNat % 2 = 1 → t.kym.rung.has (5 * f + 4) = true))
    ∧ ((s.kymFn f).urgBusy = true → t.kymFn f = { s.kymFn f with urgOverrun := true } ∧ t.kym.rung = s.kym.rung)
    ∧ (∀ g, g ≠ f → t.kymFn g = s.kymFn g)
    ∧ t.kym = { s.kym with fns := t.kym.fns, rung := t.kym.rung } ∧ Only [.fns, .intake] s t)
  ∧ (∀ (s : State) (f : Nat), s.barUp f = true → (s.kymFn f).aqEnable = false → 4 ≤ (s.kymFn f).cqLog →
    (s.kymFn f).cqLog ≤ 12 → 4 ≤ (s.kymFn f).rqLog → (s.kymFn f).rqLog ≤ 12 → s.kym.heldReplies = [] →
    ∃ t, exec (.aqEnable f) s = .next t
    ∧ t.kymFn f = { s.kymFn f with aqEnable := true }
    ∧ t.pair? f 0 = some { cbase := (s.kymFn f).aqCbase, rbase := (s.kymFn f).aqRbase, cqLog := (s.kymFn f).cqLog
                           rqLog := (s.kymFn f).rqLog, vector := (s.kymFn f).vector }
    ∧ t.seqState (.queue f 0) = {}
    ∧ (∀ g r, 4 * g + r ≠ 4 * f → t.pair? g r = s.pair? g r)
    ∧ t.kym.running = s.kym.running.map (fun (r : Running) =>
        if r.cmd.path = Path.queue f 0 then { r with forgotten := true } else r)
    ∧ Only [.fns, .pairs, .rings, .seqs, .intake, .running] s t)
  ∧ ∀ (s : State) (f : Nat), s.barUp f = true → (s.kymFn f).aqEnable = true → ∃ t, exec (.aqDisable f) s = .next t
    ∧ t.kymFn f = { s.kymFn f with aqEnable := false } ∧ t.pair? f 0 = none
    ∧ (∀ g r, 4 * g + r ≠ 4 * f → t.pair? g r = s.pair? g r)
    ∧ Only [.fns, .pairs, .rings, .intake] s t

/-- The warden. A lockstep mismatch halts it and counts (R58-R61); the PF's restart bit and the sideband's message begin a
restart while it is halted, and the message reads KYM.STATUS at any time (R62, R63, R867); a restart whose bank verifies
resumes intake, with every command it had taken ended by ST_INTERNAL (R129), and one whose bank fails stays (R269); a
Kymal message on the sideband waits at position 640 (R1036); an activation at the quiet point runs the new bank where it
verifies, and advances the rollback fuses only as the image asks (R130-R133, R934). -/
def Obligations.WardenEventsTakeEffect : Prop :=
  (∀ s : State, s.boot.device ≠ .cold → s.clk.wardenLocked = true → s.islandHalted islWarden = false →
    s.kym.warden ≠ .halted → ∃ t, exec .lockstepMismatch s = .next t
    ∧ t.kym = { s.kym with warden := .halted, mismatches := satInc 65535 s.kym.mismatches, mismatchAt := s.now
                           mismatchPending := true }
    ∧ t.faultN = true ∧ Only [.warden] s t)
  ∧ (∀ (s : State) (v : BitVec 32), s.barUp 0 = true → v.toNat % 2 = 1 → s.kym.warden = .halted →
    s.islandHalted islWarden = false → ∃ t, exec (.wardenCtrlRestart 0 v) s = .next t
    ∧ t.kym = { s.kym with warden := .restarting } ∧ Only [.warden] s t)
  ∧ (∀ (s : State) (f : Nat) (v : BitVec 32), f ≠ 0 → exec (.wardenCtrlRestart f v) s = .next s)
  ∧ (∀ s : State, s.sidebandUp = true →
    (∃ t, exec (.wardenControlMessage false) s = .next t ∧ t.out = .read (s.kymStatus 0) false :: s.out ∧ Only [.out] s t)
    ∧ (s.kym.warden = .halted → s.islandHalted islWarden = false → ∃ t, exec (.wardenControlMessage true) s = .next t
        ∧ t.kym = { s.kym with warden := .restarting } ∧ Only [.warden] s t))
  ∧ (∀ s : State, s.kym.warden = .restarting → s.kym.restartFailed = false → s.islandHalted islWarden = false →
    s.sealed.resets = 0 → ∃ t, exec (.wardenRestartComplete true) s = .next t
    ∧ t.kym.warden = .running ∧ t.kym.sidebandVersion = none ∧ t.kym.mismatchPending = false
    ∧ (s.kym.running = [] → s.ev.logOpen = true → t.ev.held = [])
    ∧ ((∀ r ∈ s.kym.running, r.outcome.isSome = true) →
        t.kym.running = [] ∧ t.mem = { s.mem with area := t.mem.area } ∧ t.prog = s.prog ∧ t.kym.leases = s.kym.leases))
  ∧ (∀ s : State, s.kym.warden = .restarting → s.kym.restartFailed = false → s.islandHalted islWarden = false →
    ∃ t, exec (.wardenRestartComplete false) s = .next t
    ∧ t.kym = { s.kym with restartFailed := true } ∧ t.faultN = true ∧ Only [.warden] s t)
  ∧ (∀ (s : State) (entry inl : Bytes) (a : Answers), s.sidebandUp = true → entry.length = 128 →
    ∃ t, exec (.sidebandKymalRequest entry inl a) s = .next t
    ∧ t.kym.sideband = s.kym.sideband ++ [KCmd.parse .sideband entry inl a] ∧ t.kym.rung.has 640 = true
    ∧ Only [.intake] s t)
  ∧ (∀ (s : State) (b pause : Nat), s.kym.activating = some b → s.quiet = true → s.wardenTakes = true → b ≤ 1 →
    (s.image b).rollback ≥ s.flash.rollbackFuses → ∃ t, exec (.fwActivateSwap true pause) s = .next t
    ∧ t.kym.activating = none ∧ t.boot = { s.boot with bank := b }
    ∧ t.flash = { s.flash with bankPtr := b, recordWrites := s.flash.recordWrites + 1, rollbackFuses :=
        if (s.image b).commitRollback then max s.flash.rollbackFuses (s.image b).rollback else s.flash.rollbackFuses }
    ∧ (∀ r ∈ t.kym.running, r.opcode = 0x1906 → r.ref = wardenUnit → r.outcome.isSome = true)
    ∧ t.mem = { s.mem with area := t.mem.area } ∧ Part.kept s t .leases ∧ Part.kept s t .prog ∧ Part.kept s t .gens)
  ∧ ∀ (s : State) (b pause : Nat), s.kym.activating = some b → s.quiet = true → s.wardenTakes = true → b ≤ 1 →
    ∃ t, exec (.fwActivateSwap false pause) s = .next t
    ∧ t.kym.activating = none ∧ (t.image b).valid = false ∧ t.boot = s.boot ∧ t.flash.bankPtr = s.flash.bankPtr
    ∧ Only [.warden, .flash, .running] s t

/-- Intake and replies. Intake takes the command at the next position and runs the row its opcode names, on a state in which
only that position's queue has moved on (R76-R80); an opcode that no command has is answered ST_BAD_OPCODE (R88). An
accepted command at its end leaves the running commands and its final reply is written, or, its function reset, is not
(R93, R127). A pending break takes effect once no command of a holder runs (R111-R113). A failed ring access marks its
pair failed, and the command whose buffer failed is consumed (R121, R1028). -/
def Obligations.IntakeAndRepliesTakeEffect : Prop :=
  (∀ (s : State) (entry ext : Bytes) (fenced : List Nat) (a : Answers) (pos f q op : Nat) (k : KCmd) (c : Cmd) (p : QPair),
    s.wardenTakes = true → s.nextPosition fenced = some pos → pathOf pos = .queue f q → s.pair? f q = some p →
    KCmd.parse (.queue f q) entry ext a = (op, k) → cmdOf op = some c →
    ∃ u, exec (.intakeTake entry ext fenced a) s = .next (u.runCmd c k)
    ∧ u.pair? f q = some { p with head := (p.head + 1) % 2 ^ p.cqLog }
    ∧ (∀ g r, 4 * g + r ≠ 4 * f + q → u.pair? g r = s.pair? g r)
    ∧ u.kym.lastPos = some pos
    ∧ u.kym.rung.get? (5 * f + q) = (if (p.head + 1) % 2 ^ p.cqLog = p.tail then none else s.kym.rung.get? (5 * f + q))
    ∧ Only [.pairs, .intake, .out] s u)
  ∧ (∀ (s : State) (entry ext : Bytes) (fenced : List Nat) (a : Answers) (pos f op : Nat) (k : KCmd) (c : Cmd),
    s.wardenTakes = true → s.nextPosition fenced = some pos → pathOf pos = .urgent f →
    KCmd.parse (.urgent f) (s.kymFn f).urgCmd ext a = (op, k) → cmdOf op = some c →
    ∃ u, exec (.intakeTake entry ext fenced a) s = .next (u.runCmd c k)
    ∧ u.kym.lastPos = some pos ∧ u.kym.rung.get? pos = none ∧ Only [.intake, .out] s u)
  ∧ (∀ (s : State) (entry ext : Bytes) (fenced : List Nat) (a : Answers) (pos op : Nat) (k : KCmd) (c : Cmd)
      (rest : List (Nat × KCmd)), s.wardenTakes = true → s.nextPosition fenced = some pos → pathOf pos = .sideband →
    s.kym.sideband = (op, k) :: rest → cmdOf op = some c →
    ∃ u, exec (.intakeTake entry ext fenced a) s = .next (u.runCmd c k)
    ∧ u.kym.lastPos = some pos ∧ u.kym.sideband = rest ∧ Only [.intake] s u)
  ∧ (∀ (s : State) (entry ext : Bytes) (fenced : List Nat) (a : Answers) (pos f q op v : Nat) (k : KCmd) (p : QPair),
    s.wardenTakes = true → s.nextPosition fenced = some pos → pathOf pos = .queue f q → s.pair? f q = some p →
    KCmd.parse (.queue f q) entry ext a = (op, k) → cmdOf op = none → s.version? (.queue f q) = some v →
    seqCheck s op k = none →
    ∃ t, exec (.intakeTake entry ext fenced a) s = .next t
    ∧ (t.seqState (.queue f q)).history.head? = some ⟨k.seq, op, some stBadOpcode, 0⟩
    ∧ Only ([.pairs, .intake] ++ replyParts) s t)
  ∧ (∀ (s : State) (p : Path) (seq : BitVec 32) (a : Answers) (r : Running) (c : Cmd) (u : State) (f : Finish),
    s.kym.warden = .running → s.islandHalted islWarden = false →
    s.kym.running.find? (fun r => decide (r.cmd.path = p) && r.cmd.seq == seq) = some r → cmdOf r.opcode = some c →
    c.finish s r a = some (u, f) →
    ∃ t, exec (.deferredFinalReply p seq a) s = .next t
    ∧ r ∉ t.kym.running ∧ (∀ x ∈ t.kym.running, x ∈ u.kym.running)
    ∧ (r.orphan = false → Delivered { path := p, opcode := r.opcode, seq := seq, status := f.status, detail := f.detail
                                      gen := u.generation r.ref, result := f.result
                                      owes := if r.modeS then none else some r.ref } t
        ∧ Only (.running :: replyParts) u t)
    ∧ (r.orphan = true → Only [.running, .ev] u t))
  ∧ (∀ (s : State) (ref : Nat) (b : Break) (r : Running), s.kym.warden = .running → s.islandHalted islWarden = false →
    (s.kym.breaks.get [] ref).find? (fun b => !s.breakWaits ref b.breaker) = some b →
    s.kym.running.find? (fun r => r.opcode == 0x0107 && r.ref == ref && decide (r.cmd.path = b.path) && r.cmd.seq == b.seq)
      = some r →
    ∃ t, exec (.leaseBreakEffect ref) s = .next t
    ∧ t.kym.breaks.get [] ref
        = (s.kym.breaks.get [] ref).filter (fun x => !(decide (x.path = b.path) && x.seq == b.seq))
    ∧ r ∉ t.kym.running
    ∧ (∀ h, h ≠ b.breaker → t.leaseOf ref h = none)
    ∧ t.leaseOf ref b.breaker = (if b.take then some ⟨ref, b.breaker, true⟩ else s.leaseOf ref b.breaker)
    ∧ (∀ x h, x ≠ ref → t.leaseOf x h = s.leaseOf x h)
    ∧ (r.orphan = false → Delivered { path := r.cmd.path, opcode := r.opcode, seq := r.cmd.seq, status := stOk
                                      gen := t.generation r.ref, result := toLE 2 (s.victims ref b.breaker).length
                                      owes := if r.modeS then none else some r.ref } t)
    ∧ Only ([.leases, .breaks, .running, .ev] ++ replyParts) s t)
  ∧ (∀ (s : State) (e : QueueFault) (f q : Nat) (p : QPair), s.wardenTakes = true → e.path = .queue f q → e.taken = none →
    s.pair? f q = some p → ∃ t, exec (.queueAccessError e) s = .next t
    ∧ t.pair? f q = some { p with failed := true }
    ∧ (∀ g r, 4 * g + r ≠ 4 * f + q → t.pair? g r = s.pair? g r) ∧ Only [.pairs, .ev] s t)
  ∧ ∀ (s : State) (e : QueueFault) (f q op : Nat) (k : KCmd) (p : QPair), s.wardenTakes = true → e.path = .queue f q →
    e.taken = some (op, k) → s.nextPosition e.fenced = some e.path.position → s.pathOpen { k with path := e.path } = true →
    s.pair? f q = some p →
    ∃ t, exec (.queueAccessError e) s = .next t
    ∧ t.pair? f q = some { p with head := (p.head + 1) % 2 ^ p.cqLog, failed := true }
    ∧ (∀ g r, 4 * g + r ≠ 4 * f + q → t.pair? g r = s.pair? g r)
    ∧ Only [.pairs, .ev, .intake, .held, .seqs, .out] s t

/-- Events. A posted event is numbered, stamped and held, and a FAILED or FATAL one holds FAULT_N for 10 ms (R198, R201,
R202); routing writes the oldest to the log, and to its function's queue where that has room, or counts it lost there
(R203, R211, R212, R217); a queue with a first loss and room receives one SPILLWAY (R213); FAULT_N is let go once its time
has come (R198); a head in range frees the entries before it (R208, R210); a vector unmasked sends what was pending
(R853); a debug nonce ends 60 s after its challenge (R936). -/
def Obligations.EventsTakeEffect : Prop :=
  (∀ (s : State) (code sev unit detail : Nat), (codeSeverities code).contains sev = true →
    codeUnit code unit = true → detailOk code detail = true → s.islandHalted islWarden = false → s.sealed.resets = 0 →
    s.routeBlocked = false ∨ s.ev.held.length < 1024 →
    ∃ t e, exec (.eventCollect code sev unit detail) s = .next t
    ∧ t.ev.held = s.ev.held ++ [e] ∧ e.code = code ∧ e.severity = sev ∧ e.unit = unit ∧ e.seq = s.ev.nextSeq
    ∧ e.stamp = s.follower (codeIsland code unit detail) ∧ t.ev.nextSeq = (s.ev.nextSeq + 1) % 2 ^ 48
    ∧ t.ev.faultUntil = (if 4 ≤ sev then some (s.now + 10000000) else s.ev.faultUntil)
    ∧ Only [.ev] s t)
  ∧ (∀ (s : State) (e : Event) (rest : List Event), s.routeBlocked = false → s.islandHalted islWarden = false →
    s.ev.held = e :: rest → ∃ t, exec .eventRoute s = .next t
    ∧ t.ev.held = rest
    ∧ (s.ev.noLog = false → ∃ n, t.ev.log = (s.ev.log ++ [e]).drop n ∧ t.ev.log.length ≤ max 65536 s.ev.log.length)
    ∧ (∀ f, s.routeFn e = some f → (f = 0 ∨ e.severity < 4) → (s.queue f).first = none →
        ((s.queue f).isFull = false → (t.queue f).idx = ((s.queue f).idx + 1) % 2 ^ (s.queue f).log2
          ∧ (t.queue f).held = (s.queue f).held + 1
          ∧ Sent (Out.event f (s.queue f).idx (recordBytes e (s.queue f).phase)) t)
        ∧ ((s.queue f).isFull = true → t.ev.lost.get 0 (32 * f + e.cls) = s.ev.lost.get 0 (32 * f + e.cls) + 1
          ∧ (t.queue f).first.isSome = true))
    ∧ t.mem = { s.mem with area := t.mem.area } ∧ Only [.ev, .out, .msix, .mem] s t)
  ∧ (∀ (s : State) (f : Nat) (l : FirstLoss), s.routeBlocked = false → s.islandHalted islWarden = false →
    (s.queue f).first = some l → (s.queue f).isFull = false → ∃ t, exec (.spillwayWrite f) s = .next t
    ∧ (t.queue f).first = none ∧ (t.queue f).held = (s.queue f).held + 1 ∧ (t.queue f).raised = true
    ∧ Sent (Out.event f (s.queue f).idx (recordBytes (spillwayEvent l (functionUnit f) l.seq l.seq) (s.queue f).phase)) t
    ∧ (∀ g, g ≠ f → t.queue g = s.queue g) ∧ Only [.ev, .out, .msix] s t)
  ∧ (∀ (s : State) (x : Nat), s.ev.faultUntil = some x → x ≤ s.now → ∃ t, exec .faultNExpiry s = .next t
    ∧ t.ev = { s.ev with faultUntil := none } ∧ Only [.ev] s t)
  ∧ (∀ (s : State) (f : Nat) (v : BitVec 32), s.barUp f = true → (s.queue f).enabled = true →
    v.toNat % 65536 < 2 ^ (s.queue f).log2 →
    ((s.queue f).idx + 2 ^ (s.queue f).log2 - v.toNat % 65536) % 2 ^ (s.queue f).log2 ≤ (s.queue f).held →
    ∃ t, exec (.evqHeadWrite f v) s = .next t
    ∧ (t.queue f).head = v.toNat % 65536
    ∧ (t.queue f).held = ((s.queue f).idx + 2 ^ (s.queue f).log2 - v.toNat % 65536) % 2 ^ (s.queue f).log2
    ∧ ((t.queue f).held ≠ (s.queue f).held → (t.queue f).raised = false)
    ∧ (t.queue f).idx = (s.queue f).idx ∧ (t.queue f).phase = (s.queue f).phase
    ∧ (∀ g, g ≠ f → t.queue g = s.queue g) ∧ Only [.ev] s t)
  ∧ (∀ (s : State) (f v : Nat), s.barUp f = true → v < vectorLimit f → ∃ t, exec (.msixVectorUnmask f (.unmask v)) s = .next t
    ∧ ((t.hostFn f).vectors.get {} v).masked = false
    ∧ (∀ w, w ≠ v → (t.hostFn f).vectors.get {} w = (s.hostFn f).vectors.get {} w)
    ∧ ((s.hostFn f).msixEnable = true → (s.hostFn f).functionMask = false → (s.hostFn f).pba.has v = true →
        Out.msix f v ∈ t.out ∧ (t.hostFn f).pba.has v = false)
    ∧ (∀ g, g ≠ f → t.hostFn g = s.hostFn g) ∧ Only [.host, .msix, .out] s t)
  ∧ (∀ (s : State) (f : Nat) (on mask : Bool), s.barUp f = true →
    ∃ t, exec (.msixVectorUnmask f (.control on mask)) s = .next t
    ∧ (t.hostFn f).msixEnable = on ∧ (t.hostFn f).functionMask = mask ∧ (t.hostFn f).vectors = (s.hostFn f).vectors
    ∧ (∀ g, g ≠ f → t.hostFn g = s.hostFn g) ∧ Only [.host, .msix, .out] s t)
  ∧ ∀ (s : State) (n : Bytes × Nat), s.sealed.nonce = some n → n.2 + 60000000000 ≤ s.now →
    ∃ t, exec .nonceExpiry s = .next t ∧ t.sealed = { s.sealed with nonce := none } ∧ Only [.sealed] s t

/-- The registers. A read of the low half of TBASE answers it and leaves the high half in the path's slot, TORN where a
snapshot was overwritten; the next high-half read answers that and empties the slot, and one without a snapshot answers the
high half of the time now, TORN; an 8-byte read answers all of it (R50, R220-R223). The same holds of the sideband's
registers (R866). A write in a served width sets the register's fields and no other (R69, R1039). -/
def Obligations.RegisterAccessesTakeEffect : Prop :=
  (∀ (s : State) (f : Nat), s.barUp f = true → ∃ t, exec (.timeLoRead f) s = .next t
    ∧ t.out = .read (s.hostTime.toNat % 2 ^ 32) (s.ev.bar0Slots.has f) :: s.out
    ∧ t.ev.bar0Slots.get? f = some { reg := 0x300, high := BitVec.ofNat 32 (s.hostTime.toNat / 2 ^ 32) }
    ∧ t.ev.timeTorn.has f = (s.ev.timeTorn.has f || s.ev.bar0Slots.has f)
    ∧ (∀ g, g ≠ f → t.ev.bar0Slots.get? g = s.ev.bar0Slots.get? g ∧ t.ev.timeTorn.has g = s.ev.timeTorn.has g)
    ∧ Only [.ev, .out] s t)
  ∧ (∀ (s : State) (f : Nat) (x : Snapshot), s.barUp f = true → s.ev.bar0Slots.get? f = some x → x.reg = 0x300 →
    ∃ t, exec (.timeHiRead f) s = .next t
    ∧ t.out = .read x.high.toNat false :: s.out ∧ t.ev.bar0Slots.get? f = none ∧ Only [.ev, .out] s t)
  ∧ (∀ (s : State) (f : Nat), s.barUp f = true → s.ev.bar0Slots.get? f = none → ∃ t, exec (.timeHiRead f) s = .next t
    ∧ t.out = .read (s.hostTime.toNat / 2 ^ 32) true :: s.out ∧ t.ev.timeTorn.has f = true ∧ Only [.ev, .out] s t)
  ∧ (∀ (s : State) (f : Nat), s.barUp f = true → ∃ t, exec (.timeRead8b f) s = .next t
    ∧ t.out = .read s.hostTime.toNat false :: s.out ∧ Only [.out] s t)
  ∧ (∀ (s : State) (offset : Nat) (data : Option (BitVec 32)), s.sidebandUp = true →
    ∃ t, exec (.sbrBlockWrite offset data) s = .next t
    ∧ t.host = { s.host with sbrOffset := offset % 65536 }
    ∧ t.ev = { s.ev with sbrTorn := s.ev.sbrTorn && !(decide (offset % 65536 = 0x000C)
        && (match data with | some w => w.toNat / 2 ^ 0 % 2 == 1 | none => false)) }
    ∧ Only [.host, .ev] s t)
  ∧ (∀ s : State, s.sidebandUp = true → ∃ t, exec .sbrBlockRead s = .next t
    ∧ (s.host.sbrOffset = 0 → t.out = .read 0x4D321F3D false :: s.out ∧ Only [.out] s t)
    ∧ (s.host.sbrOffset = 4 → t.out = .read (s.kymStatus 0) false :: s.out ∧ Only [.out] s t)
    ∧ (s.host.sbrOffset = 0x10 → t.out = .read (s.hostTime.toNat % 2 ^ 32) false :: s.out
        ∧ t.ev.smbusSlot = some { reg := 0x10, high := BitVec.ofNat 32 (s.hostTime.toNat / 2 ^ 32) }
        ∧ t.ev.sbrTorn = (s.ev.sbrTorn || s.ev.smbusSlot.isSome))
    ∧ (∀ x, s.host.sbrOffset = 0x14 → s.ev.smbusSlot = some x → x.reg = 0x10 →
        t.out = .read x.high.toNat false :: s.out ∧ t.ev.smbusSlot = none)
    ∧ Only [.ev, .out] s t)
  ∧ (∀ (s : State) (addr : Nat), s.sidebandUp = true → ∃ t, exec (.smbusArp addr) s = .next t
    ∧ t.host = { s.host with smbusAddr := addr % 128 } ∧ Only [.host] s t)
  ∧ (∀ (s : State) (f offset : Nat) (data : Bytes), (s.barUp f = false ∨ bar0Writes offset data.length = false) →
    exec (.registerWrite f offset data) s = .next s)
  ∧ ∀ (s : State) (f w : Nat), s.barUp f = true → w < 2 ^ 32 →
    (∃ t, exec (.registerWrite f 0x0020 (toLE 4 w)) s = .next t
      ∧ t.kymFn f = (if (s.kymFn f).aqEnable then s.kymFn f
          else { s.kymFn f with cqLog := w % 16, rqLog := w / 16 % 16, vector := w / 256 % 2048 })
      ∧ (∀ g, g ≠ f → t.kymFn g = s.kymFn g) ∧ Only [.fns] s t)
    ∧ (∃ t, exec (.registerWrite f 0x0010 (toLE 4 w)) s = .next t
      ∧ ((s.kymFn f).aqEnable = false →
          (t.kymFn f).aqCbase = (s.kymFn f).aqCbase / 2 ^ 32 * 2 ^ 32 + w - w % 4096)
      ∧ (∀ g, g ≠ f → t.kymFn g = s.kymFn g) ∧ Only [.fns] s t)
    ∧ (∃ t, exec (.registerWrite f 0x0080 (toLE 4 w)) s = .next t
      ∧ (t.kymFn f).urgCmd = overlay (s.kymFn f).urgCmd 0 (toLE 4 w)
      ∧ (∀ g, g ≠ f → t.kymFn g = s.kymFn g) ∧ Only [.fns] s t)
    ∧ ∃ t, exec (.registerWrite f 0x0144 (toLE 4 w)) s = .next t
      ∧ (t.kymFn f).urgDone = ((s.kymFn f).urgDone && !(w / 2 % 2 == 1))
      ∧ (t.kymFn f).urgOverrun = ((s.kymFn f).urgOverrun && !(w / 4 % 2 == 1))
      ∧ (t.kymFn f).urgBusy = (s.kymFn f).urgBusy ∧ (∀ g, g ≠ f → t.kymFn g = s.kymFn g) ∧ Only [.fns, .urgent] s t

/-- The JTAG port, while PWR_OK is asserted. IDCODE reads 0x14D32C1B (R4), BYPASS one zero bit; the instructions that drive
pins select the boundary cells; an instruction Table 21-7 does not list runs as BYPASS on a locked part (R935); SBR_ACCESS reads
the sideband registers by the two-halves rule; TESTRUN starts a test as TEST_RUN does and answers; BOND_EXTEST drives the
bond wires only while no key is loaded and no port is ACTIVE (R985); TRST_N puts the TAP in reset (R1012). -/
def Obligations.JtagTakesEffect : Prop :=
  (∀ s : State, s.boot.pwrOk = true →
    (∃ t, exec (.jtagBoundaryScan .idcode) s = .next t ∧ t.out = .jtag 0x14D32C1B 32 :: s.out
      ∧ t.host = { s.host with tapReset := false, boundaryScan := false } ∧ Only [.host, .out] s t)
    ∧ (∃ t, exec (.jtagBoundaryScan .bypass) s = .next t ∧ t.out = .jtag 0 1 :: s.out
      ∧ t.host = { s.host with tapReset := false, boundaryScan := false } ∧ Only [.host, .out] s t)
    ∧ (∃ t, exec (.jtagBoundaryScan .extest) s = .next t
      ∧ t.host = { s.host with tapReset := false, boundaryScan := true } ∧ Only [.host, .out, .freeCtr] s t)
    ∧ (∃ t, exec (.jtagBoundaryScan .samplePreload) s = .next t
      ∧ t.host = { s.host with tapReset := false, boundaryScan := false } ∧ Only [.host, .out, .freeCtr] s t)
    ∧ ∀ scope, s.sealed.unlocked = none → exec (.jtagBoundaryScan (.other scope)) s = exec (.jtagBoundaryScan .bypass) s)
  ∧ (∀ s : State, s.boot.pwrOk = true → s.boot.smbusUp = true → s.islandHalted islHost = false →
    (∃ t, exec (.jtagSbrAccess 0x10) s = .next t
      ∧ t.out = .jtag (s.hostTime.toNat % 2 ^ 32) 33 :: s.out
      ∧ t.ev.jtagSlot = some { reg := 0x10, high := BitVec.ofNat 32 (s.hostTime.toNat / 2 ^ 32) }
      ∧ t.ev.jtagTorn = (s.ev.jtagTorn || s.ev.jtagSlot.isSome)
      ∧ Only [.host, .ev, .out] s t)
    ∧ ∃ t, exec (.jtagSbrAccess 0x14) s = .next t
      ∧ (∀ x, s.ev.jtagSlot = some x → x.reg = 0x10 → t.ev.jtagSlot = none
          ∧ t.out = .jtag (x.high.toNat + if s.ev.jtagTorn then 2 ^ 32 else 0) 33 :: s.out)
      ∧ t.ev.jtagTorn = false ∧ Only [.host, .ev, .out] s t)
  ∧ (∀ (s : State) (test u : Nat), s.boot.pwrOk = true → unitValid u = true → ownStates (unitClass u) = true →
    testClass test (unitClass u) = true → s.testHeld test u = none → ∃ t, exec (.jtagTestrun (some test) u) s = .next t
    ∧ (∀ x ∈ testUnits test u, t.unitState x = .underTest) ∧ t.svc.testing.get? u = some (test, s.now)
    ∧ (∃ rest, t.out = .testRun stAccepted 0 [] :: rest))
  ∧ (∀ (s : State) (u : Nat) (r : TestResult), s.boot.pwrOk = true → unitValid u = true → s.unitState u = .outOfService →
    s.svc.results.get? u = some r → ∃ t, exec (.jtagTestrun none u) s = .next t
    ∧ t.out = .testRun stOk 0 (toLE 1 r.verdict ++ toLE 1 r.test ++ toLE 2 0 ++ toLE 4 r.failCount ++ toLE 8 r.signature
        ++ toLE 8 r.expected ++ toLE 8 r.stamp) :: s.out
    ∧ Only [.host, .out] s t)
  ∧ (∀ s : State, s.boot.pwrOk = true → ∃ t, exec .bondExtest s = .next t
    ∧ (s.sealed.slots.cells = [] → (∀ p, p < 48 → s.portUp p = false) →
        t.out.head? = some (.bondPattern 4568 19376) ∧ t.host = { s.host with tapReset := false, boundaryScan := true })
    ∧ (s.sealed.slots.cells ≠ [] → exec .bondExtest s = exec (.jtagBoundaryScan .bypass) s)
    ∧ Only [.host, .out, .freeCtr] s t)
  ∧ ∀ s : State, ∃ t, exec .trstNAssert s = .next t
    ∧ t.host = { s.host with tapReset := true, boundaryScan := false } ∧ Only [.host] s t

/-- Clocks. A broadcast brings no follower further behind the master (R47, R49); an island whose DPLL loses lock is gated
where it stands, resumes on a relock within 10 µs, behind by as long, and stays stopped after it, and what drains there
leaves service (R55, R184, R949); the IVR phases stop below 1.60 V and start again above 1.65 V (R991). -/
def Obligations.ClockEventsTakeEffect : Prop :=
  (∀ s : State, ∃ t, exec .tbaseBroadcast s = .next t
    ∧ (∀ i, (t.island i).lag ≤ (s.island i).lag ∧ { t.island i with lag := 0 } = { s.island i with lag := 0 })
    ∧ t.clk = { s.clk with islands := t.clk.islands } ∧ Only [.clk, .freeCtr] s t)
  ∧ (∀ (s : State) (i : Nat), i < islSeal → s.dpllLocked i = true → s.islandHalted i = false →
    ∃ t, exec (.islandDpllLockLoss i) s = .next t
    ∧ t.island i = { s.island i with gatedAt := some s.now } ∧ (∀ j, j ≠ i → t.island j = s.island j)
    ∧ t.clk = { s.clk with islands := t.clk.islands } ∧ Only [.clk] s t)
  ∧ (∀ (s : State) (i x : Nat), (s.island i).gatedAt = some x → (s.island i).stopped = false → s.now ≤ x + 10000 →
    ∃ t, exec (.islandDpllRelock i) s = .next t
    ∧ t.island i = { s.island i with gatedAt := none, lag := (s.island i).lag + (s.now - x) }
    ∧ (∀ j, j ≠ i → t.island j = s.island j)
    ∧ t.clk = { s.clk with islands := t.clk.islands }
    ∧ (i ∉ [islWarden, islHost, islXlat] → islandChannels i = [] → Only [.clk, .ev] s t))
  ∧ (∀ (s : State) (i x : Nat), (s.island i).gatedAt = some x → (s.island i).stopped = false → x + 10000 < s.now →
    ∃ t, exec (.dpllLockTimeout i) s = .next t
    ∧ t.island i = { s.island i with stopped := true } ∧ (∀ j, j ≠ i → t.island j = s.island j)
    ∧ (∀ u ∈ unitsOfIsland i, ownStates (unitClass u) = true → s.unitState u = .draining → t.unitState u = .outOfService)
    ∧ ((∀ u ∈ unitsOfIsland i, s.unitState u ≠ .draining) → Only [.clk, .ev] s t))
  ∧ ∀ (s : State) (mv : Nat), ∃ t, exec (.vinIvrUndervoltage mv) s = .next t
    ∧ (mv < 1600 → t.boot = { s.boot with ivrStopped := true })
    ∧ (1650 < mv → t.boot = { s.boot with ivrStopped := false })
    ∧ (1600 ≤ mv → mv ≤ 1650 → t.boot = s.boot) ∧ Only [.boot] s t

/-- Power and thermal management. A control loop counts, keeps its powers for the mean of the last 100, evaluates the alert
(R892, R893), lowers at once the clock of every island that is to run slower (R889), and changes nothing but power, orders,
events and what it says to the dies; a stack's readout latches its sensors (R190, R891); a board channel's temperature sets
its refresh (R308); a refresh interval refreshes as often as the stack's temperature, or the board devices', asks (R307,
R308); a trip and an
over-current stay (R876, R894). -/
def Obligations.PowerEventsTakeEffect : Prop :=
  (∀ (s : State) (r : LoopReport), s.islandHalted islPmgr = false → 3 ≤ s.boot.step → ∃ t, exec (.controlLoop r) s = .next t
    ∧ t.power.loops = s.power.loops + 1 ∧ t.power.loopAt = s.follower islPmgr
    ∧ (∃ powers, t.power.history = (powers :: s.power.history).take 100)
    ∧ t.power.tripped = s.power.tripped ∧ t.power.trip = s.power.trip
    ∧ (∀ k v, k < 64 → r.base = [(k, v)] → t.power.base.get? k = some ⟨v, 0⟩)
    ∧ t.power.conditions = t.alertBits 0
    ∧ t.power.alert = (t.alertBits 0 != 0 || (s.power.alert && t.alertBits 30 != 0))
    ∧ (∀ i, i < 181 → t.islandTarget i ≤ s.islandMHz i → t.islandMHz i = t.islandTarget i)
    ∧ Only [.power, .orders, .ev, .prog, .d2d, .out] s t)
  ∧ (∀ (s : State) (stack : Nat) (temps : List Nat), stack < 8 → temps.length = 4 → 12 ≤ s.boot.step →
    (homeIslands (stackUnit stack)).all s.islandHalted = false → ∃ t, exec (.stackSensorReadout stack temps) s = .next t
    ∧ t.mem.nearStacks.get {} stack = { s.mem.nearStacks.get {} stack with sensors := temps, lastReadout := s.now }
    ∧ (∀ j, j ≠ stack → t.mem.nearStacks.get {} j = s.mem.nearStacks.get {} j)
    ∧ t.mem = { s.mem with nearStacks := t.mem.nearStacks }
    ∧ t.power = { s.power with unread := s.power.unread.set stack 0 }
    ∧ (∀ k, k ≠ refId (orderRef 1 (stackUnit stack)) → t.orders.get? k = s.orders.get? k)
    ∧ Only [.mem, .power, .orders, .ev] s t)
  ∧ (∀ (s : State) (b tj divisor : Nat), b < 12 → b ∈ s.mem.trained → s.islandHalted (80 + b) = false →
    ∃ t, exec (.boardTempRead b tj divisor) s = .next t
    ∧ t.chan (128 + b) = { s.chan (128 + b) with deviceTj := tj, refreshDiv := divisor }
    ∧ (∀ n, n ≠ 128 + b → t.chan n = s.chan n) ∧ t.mem = { s.mem with channels := t.mem.channels } ∧ Only [.mem] s t)
  ∧ (∀ (s : State) (n : Nat), s.refreshRuns n = true → ∃ t, exec (.refresh n) s = .next t
    ∧ (n < 128 → (t.chan n).refreshes = (s.chan n).refreshes
        + (if s.stackTj (n / 16) ≤ 850 then 1 else if s.stackTj (n / 16) ≤ 950 then 2 else 4))
    ∧ (128 ≤ n → (t.chan n).refreshes = (s.chan n).refreshes + (s.chan n).refreshDiv)
    ∧ t.chan n = { s.chan n with refreshes := (t.chan n).refreshes }
    ∧ (∀ m, m ≠ n → t.chan m = s.chan m) ∧ t.mem = { s.mem with channels := t.mem.channels } ∧ Only [.mem] s t)
  ∧ (∀ (s : State) (k : Nat), k < 8 → s.boot.pwrOk = true → k ∉ s.power.trip → ∃ t, exec (.thermTrip k) s = .next t
    ∧ t.power = { s.power with trip := k :: s.power.trip } ∧ Only [.power, .ev] s t)
  ∧ ∀ (s : State) (p : Nat), p < 96 → p ∉ s.power.tripped → ∃ t, exec (.phaseOvercurrent p) s = .next t
    ∧ t.power = { s.power with tripped := p :: s.power.tripped } ∧ Only [.power] s t

/-- The power sideband of a compute die. A message whose CRC fails is counted and dropped (R738); IDENTITY of protocol 1 and
64 clusters answers the boot handshake, and a die that has not answered in time leaves service with its clusters (R250,
R742); eight powers, or eight temperatures, are latched (R739); grants whose bits are clear end (R741); the level of
DTHERM_N is followed (R903). No other die changes. -/
def Obligations.PowerSidebandTakesEffect : Prop :=
  (∀ (s : State) (d : Nat) (body : Bytes) (crc : Nat), d < 4 → body.length = 32 → crc16 body ≠ crc →
    (∃ t, exec (.psbClusterPower d body crc) s = .next t ∧ t.die d = { s.die d with psbErrors := (s.die d).psbErrors + 1 }
      ∧ (∀ e, e ≠ d → t.die e = s.die e) ∧ Only [.d2d] s t)
    ∧ exec (.psbSensors d body crc) s = exec (.psbClusterPower d body crc) s
    ∧ exec (.psbGrants d body crc) s = exec (.psbClusterPower d body crc) s
    ∧ exec (.psbIdentity d body crc) s = exec (.psbClusterPower d body crc) s)
  ∧ (∀ (s : State) (d : Nat) (body : Bytes), d < 4 → body.length = 32 → byteAt body 0 = 0x80 → byteAt body 1 = 1 →
    byteAt body 2 = 64 → ∃ t, exec (.psbIdentity d body (crc16 body)) s = .next t
    ∧ t.die d = { s.die d with ready := true, identity := fieldAt body 4 4, checked := true }
    ∧ (∀ e, e ≠ d → t.die e = s.die e) ∧ Only [.d2d] s t)
  ∧ (∀ (s : State) (d : Nat), d < 4 → (s.die d).checked = false → s.boot.step = 13 → s.unitState (dieUnit d) = .inService →
    ∃ t, exec (.dieHandshakeTimeout d) s = .next t
    ∧ t.unitState (dieUnit d) = .outOfService
    ∧ (∀ i, i < 64 → t.unitState (clusterUnit (64 * d + i)) = .outOfService) ∧ Only [.svc, .ev] s t)
  ∧ (∀ (s : State) (d : Nat) (body : Bytes), d < 4 → body.length = 32 → byteAt body 0 = 0x81 → byteAt body 1 % 8 = 0 →
    byteAt body 1 < 64 → ∃ t, exec (.psbClusterPower d body (crc16 body)) s = .next t
    ∧ (∀ i, i < 8 → (t.die d).powers.get? (byteAt body 1 + i) = some (fieldAt body (2 + 2 * i) 2))
    ∧ (∀ c, (c < byteAt body 1 ∨ byteAt body 1 + 8 ≤ c) → (t.die d).powers.get? c = (s.die d).powers.get? c)
    ∧ t.die d = { s.die d with powers := (t.die d).powers } ∧ (∀ e, e ≠ d → t.die e = s.die e) ∧ Only [.d2d] s t)
  ∧ (∀ (s : State) (d : Nat) (body : Bytes), d < 4 → body.length = 32 → byteAt body 0 = 0x82 → byteAt body 1 % 8 = 0 →
    byteAt body 1 < 16 → ∃ t, exec (.psbSensors d body (crc16 body)) s = .next t
    ∧ (∀ i, i < 8 → (t.die d).sensors.get? (byteAt body 1 + i) = some ⟨fieldAt body (2 + 2 * i) 2, 0⟩)
    ∧ t.power = { s.power with silent := s.power.silent.set d 0 }
    ∧ t.die d = { s.die d with sensors := (t.die d).sensors } ∧ (∀ e, e ≠ d → t.die e = s.die e)
    ∧ Only [.d2d, .power] s t)
  ∧ (∀ (s : State) (d : Nat) (body : Bytes), d < 4 → body.length = 32 → byteAt body 0 = 0x83 →
    ∃ t, exec (.psbGrants d body (crc16 body)) s = .next t
    ∧ (t.die d).grants = fieldAt body 8 8
    ∧ (∀ i, i < 64 → (t.port (64 * d + i)).grant
        = if bitOf (fieldAt body 8 8) i then (s.port (64 * d + i)).grant else none)
    ∧ (∀ e, e ≠ d → t.die e = s.die e) ∧ Only [.d2d, .prog, .out] s t)
  ∧ ∀ (s : State) (d : Nat) (level : Bool), d < 4 → ∃ t, exec (.dthermNAssert d level) s = .next t
    ∧ t.die d = { s.die d with dtherm := level } ∧ (∀ e, e ≠ d → t.die e = s.die e) ∧ Only [.d2d] s t

/-- A cluster port that carries traffic. A group in error is counted and asked for again once (R712, R713); a correct one
that is not the expected one changes no sequence; the expected CTRL group advances the sequence and its messages wait, one
for an unbound stream unit is discarded and counted (R721); a declared loss ends the port (R716). An aperture request the
island refuses is answered TRAP and reported, a read is answered with the bytes its line holds, and the answer goes out
(R463, R725-R728); SIGNAL raises its counter, TRAP is reported, but one that the island reported already not again, CREDITS sets the totals (R639, R722, R730); a fetch
outside its caddy's near region, or of an unbound cluster, is answered with its status (R733-R735). -/
def Obligations.DieToDieEventsTakeEffect : Prop :=
  (∀ (s : State) (c crc wire : Nat) (data side : Bytes), s.d2dRuns c = true → data.length = 128 → side.length = 6 →
    crc16 (data ++ side) ≠ crc → bitsOf (fieldAt side 0 6) 7 3 ≠ grpIdle → (s.port c).stream.fails < 7 →
    ∃ t, exec (.d2dGroupReceived c (.group data side crc wire)) s = .next t
    ∧ (t.port c).retries = (s.port c).retries + 1 ∧ (t.port c).stream.nakSent = true
    ∧ (t.port c).stream.rxSeq = (s.port c).stream.rxSeq ∧ (t.port c).ctrl = (s.port c).ctrl
    ∧ (∀ e, e ≠ c → t.port e = s.port e) ∧ Only [.d2d, .out] s t)
  ∧ (∀ (s : State) (c wire : Nat) (data side : Bytes), s.d2dRuns c = true → data.length = 128 → side.length = 6 →
    bitsOf (fieldAt side 0 6) 7 3 ≠ grpIdle → fieldAt side 0 6 % 128 ≠ (s.port c).stream.rxSeq →
    ∃ t, exec (.d2dGroupReceived c (.group data side (crc16 (data ++ side)) wire)) s = .next t
    ∧ (t.port c).stream.nakSent = true ∧ (t.port c).stream.rxSeq = (s.port c).stream.rxSeq
    ∧ (t.port c).ctrl = (s.port c).ctrl ∧ (t.port c).requests = (s.port c).requests
    ∧ (∀ e, e ≠ c → t.port e = s.port e) ∧ Only [.d2d, .out] s t)
  ∧ (∀ (s : State) (c wire : Nat) (data side : Bytes), s.d2dRuns c = true → data.length = 128 → side.length = 6 →
    bitsOf (fieldAt side 0 6) 7 3 = grpCtrl → fieldAt side 0 6 % 128 = (s.port c).stream.rxSeq →
    ∃ t, exec (.d2dGroupReceived c (.group data side (crc16 (data ++ side)) wire)) s = .next t
    ∧ (t.port c).stream.rxSeq = ((s.port c).stream.rxSeq + 1) % 128 ∧ (t.port c).stream.nakSent = false
    ∧ (t.port c).ctrl = (s.port c).ctrl
        ++ ((List.range 8).map fun i => (data.drop (16 * i)).take 16).filter (fun m => byteAt m 0 != 0)
    ∧ (∀ e, e ≠ c → t.port e = s.port e) ∧ Only [.d2d, .out] s t)
  ∧ (∀ (s : State) (c wire : Nat) (data side : Bytes), s.d2dRuns c = true → data.length = 128 → side.length = 6 →
    bitsOf (fieldAt side 0 6) 7 3 = grpStream → fieldAt side 0 6 % 128 = (s.port c).stream.rxSeq →
    s.endpointOf c (bitsOf (fieldAt side 0 6) 10 3) 1 = none →
    ∃ t, exec (.d2dGroupReceived c (.group data side (crc16 (data ++ side)) wire)) s = .next t
    ∧ (t.port c).stream.rxSeq = ((s.port c).stream.rxSeq + 1) % 128
    ∧ (t.port c).discarded = (s.port c).discarded + 1 ∧ (t.port c).inbox = (s.port c).inbox
    ∧ (∀ e, e ≠ c → t.port e = s.port e) ∧ Only [.d2d, .out] s t)
  ∧ (∀ (s : State) (c path wire seq : Nat), s.d2dRuns c = true → (s.port c).bindings = {} →
    ∃ t, exec (.d2dGroupReceived c (.lost path wire seq)) s = .next t
    ∧ (t.port c).dead = true ∧ (t.port c).requests = [] ∧ t.unitState (clusterUnit c) = .outOfService
    ∧ Out.walkingOnes c ∈ t.out ∧ (∀ e, e ≠ c → t.port e = s.port e) ∧ Only [.d2d, .svc, .ev, .out] s t)
  ∧ (∀ (s : State) (c tag i cause : Nat) (faults : List WordFault) (r : ApReq), s.d2dRuns c = true →
    s.apOpen c tag = some i → (s.port c).requests[i]? = some r → s.apBehind c i r = false → s.apCause c r = some cause →
    ∃ t, exec (.apertureRequest c tag faults) s = .next t
    ∧ (t.port c).requests[i]? = some { r with answer := some (2, []) }
    ∧ (∀ j, j ≠ i → (t.port c).requests[j]? = (s.port c).requests[j]?)
    ∧ (∀ e, e ≠ c → t.port e = s.port e) ∧ Only [.d2d, .ev] s t)
  ∧ (∀ (s : State) (c tag i a : Nat) (r : ApReq), s.d2dRuns c = true →
    s.apOpen c tag = some i → (s.port c).requests[i]? = some r → s.apBehind c i r = false → s.apCause c r = none →
    s.apDpa c r = some a → r.op = 0 → s.lineWaits a = false →
    ∃ t, exec (.apertureRequest c tag []) s = .next t
    ∧ (∃ x, (t.port c).requests[i]? = some { r with answer := some x }
        ∧ x = (if (s.lineRead a (2 ^ r.size) true).2.bad.isSome then ((1, []) : Nat × Bytes)
            else (0, (s.lineRead a (2 ^ r.size) true).2.bytes)))
    ∧ (∀ j, j ≠ i → (t.port c).requests[j]? = (s.port c).requests[j]?) ∧ (∀ e, e ≠ c → t.port e = s.port e)
    ∧ ∀ p ∈ [Part.boot, .flash, .clk, .leases, .xlat, .pumps, .prog, .inf, .gath, .svc, .power], p.kept s t)
  ∧ (∀ (s : State) (c tag status : Nat) (data : Bytes) (r : ApReq), s.d2dRuns c = true →
    (s.port c).requests.find? (fun r => r.tag == tag && r.answer.isSome) = some r → r.answer = some (status, data) →
    ∃ t, exec (.apertureResponse c tag) s = .next t
    ∧ (t.port c).requests = dropFirst r (s.port c).requests
    ∧ (∀ e, e ≠ c → t.port e = s.port e) ∧ Only [.d2d, .out] s t)
  ∧ (∀ (s : State) (c rank slot q : Nat) (m : Bytes) (rest : List Bytes) (d : Caddy) (b : Binding), s.d2dRuns c = true →
    (s.port c).ctrl = m :: rest → byteAt m 0 = 1 → (s.port c).caddy = some slot → s.inf.caddies.get? slot = some d →
    d.state = 4 → d.bound = some b → b.seqs[rank]? = some q → (s.sq q).wait = none →
    ∃ t, exec (.signalMessage c rank) s = .next t
    ∧ (t.port c).ctrl = rest
    ∧ (t.sq q).counters.get 0 (byteAt m 2 % 32) = min 65535 ((s.sq q).counters.get 0 (byteAt m 2 % 32) + fieldAt m 4 2)
    ∧ { t.sq q with counters := {} } = { s.sq q with counters := {} }
    ∧ (∀ p, p ≠ q → t.sq p = s.sq p) ∧ (∀ e, e ≠ c → t.port e = s.port e) ∧ Only [.d2d, .prog] s t)
  ∧ (∀ (s : State) (c : Nat) (m : Bytes) (rest : List Bytes), s.d2dRuns c = true → (s.port c).ctrl = m :: rest →
    byteAt m 0 = 2 → ∃ t, exec (.trapMessage c) s = .next t
    ∧ ((s.port c).reported = 0 ∨ Config.trapOfIsland (byteAt m 1) = false → t.port c = { s.port c with ctrl := rest }
        ∧ t.ev = (s.raise 0x0C02 sevDegraded (clusterUnit c)
            [(8, 1), (8, byteAt m 1), (4, 0), (48, 0), (28, fieldAt m 8 4)]).ev)
    ∧ ((s.port c).reported ≠ 0 → Config.trapOfIsland (byteAt m 1) = true →
        t.port c = { s.port c with ctrl := rest, reported := (s.port c).reported - 1 } ∧ t.ev = s.ev)
    ∧ (∀ e, e ≠ c → t.port e = s.port e) ∧ Only [.d2d, .ev] s t)
  ∧ (∀ (s : State) (c : Nat) (m : Bytes) (rest : List Bytes), s.d2dRuns c = true → (s.port c).ctrl = m :: rest →
    byteAt m 0 = 3 → ∃ t, exec (.creditsMessage c) s = .next t
    ∧ (t.port c).ctrl = rest ∧ (∀ u, u < 9 → (t.port c).credit.get 0 u = byteAt m (1 + u))
    ∧ (∀ e, e ≠ c → t.port e = s.port e) ∧ Only [.d2d, .out] s t)
  ∧ ∀ (s : State) (c frame wire : Nat) (faults : List WordFault), s.d2dRuns c = true →
    crc16 (toLE 6 frame) = bitsOf frame 48 16 → bitOf frame 7 = false → bitOf frame 15 = false →
    frame % 128 = (s.port c).fetch.rxSeq → (s.port c).fetch.unacked.length < 16 →
    ((s.port c).caddy = none ∨ ∃ slot, (s.port c).caddy = some slot
      ∧ (s.fetchWindow slot).2.2 ≤ 64 * bitsOf frame 16 18) →
    ∃ t g, exec (.fetchRequest c frame wire faults) s = .next t
    ∧ (t.port c).fetch.rxSeq = ((s.port c).fetch.rxSeq + 1) % 128
    ∧ (t.port c).fetch.unacked = (s.port c).fetch.unacked ++ [g]
    ∧ byteAt g.data 64 = bitsOf frame 34 4 + 16 * (if (s.port c).caddy = none then 3 else 2)
    ∧ (∀ e, e ≠ c → t.port e = s.port e) ∧ Only [.d2d, .out, .freeCtr] s t

/-- Reducers, Infuser units and gather engines. A reducer operation is counted and answered, by its success (R584-R588,
R597); an Infuser job starts with what its source and format give, with status 0x12 where its descriptor breaks a rule
(R533, R538, R546, R547), and ends with its word at its issuer (R535, R548, R549); a gather job fixes its mask, or ends at
once (R600-R607), its slots are released on a grid and delivered as data, SKIP or POISON markers (R608-R618), and its
record goes to its sequencer, with EV_GATHER_JOB where it failed (R613, R619). -/
def Obligations.UnitJobsTakeEffect : Prop :=
  (∀ (s : State) (c tag i a n : Nat) (r : ApReq),
    (s.port c).requests.findIdx? (fun q => q.tag == tag && q.passed && q.answer.isNone) = some i →
    (s.port c).requests[i]? = some r → s.apDpa c r = some a → chanOf a = some n → s.redRuns a = true →
    ∃ t, ∃ ok : Bool, exec (.reducerOperation (.aperture c tag)) s = .next t
    ∧ (t.port c).requests[i]? = some { r with answer := some (if ok then (0, []) else (3, [])) }
    ∧ (∀ j, j ≠ i → (t.port c).requests[j]? = (s.port c).requests[j]?) ∧ (∀ e, e ≠ c → t.port e = s.port e)
    ∧ (t.gath.reducers.get {} n).applied = (s.gath.reducers.get {} n).applied + (if ok then 1 else 0)
    ∧ (t.gath.reducers.get {} n).failed = (s.gath.reducers.get {} n).failed + (if ok then 0 else 1)
    ∧ ∀ p ∈ [Part.boot, .flash, .clk, .leases, .xlat, .pumps, .prog, .inf, .link, .cohort, .power], p.kept s t)
  ∧ (∀ (s : State) (q id kind addr ast type n a m : Nat) (data : Bytes) (ordered : Bool) (o : SeqOp) (pi po : Nat),
    (s.sq q).ops.find? (fun o => o.id == id) = some o → o.work = .red kind addr ast type n data ordered none none →
    s.seqPlace q none kind addr = .polder pi po → s.placeDpa (.polder pi po) = some a → chanOf a = some m →
    s.lineBusy q id (.polder pi po) = false → s.redRuns a = true →
    ∃ t, ∃ ok : Bool, exec (.reducerOperation (.seq q id)) s = .next t
    ∧ t.sq q = { s.sq q with ops := (s.sq q).ops.map fun (o : SeqOp) =>
        if o.id = id then { o with work := .red kind addr ast type n data ordered none (some ok) } else o }
    ∧ (∀ p, p ≠ q → t.sq p = s.sq p)
    ∧ (t.gath.reducers.get {} m).applied = (s.gath.reducers.get {} m).applied + (if ok then 1 else 0)
    ∧ (t.gath.reducers.get {} m).ordered = (s.gath.reducers.get {} m).ordered + (if ok && ordered then 1 else 0)
    ∧ ∀ p ∈ [Part.boot, .flash, .clk, .leases, .xlat, .pumps, .inf, .d2d, .link, .cohort, .power], p.kept s t)
  ∧ (∀ (s : State) (p tag src : Nat) (i : InboundReq) (j : XJob), s.inboundHead p = some i → i.req.op = 3 →
    i.req.tag = tag → i.req.src = src → s.xlat.jobs.get? i.job = some j → j.remark = false → j.status = .ready →
    ((s.inboundPlaces i).head?.bind fun x => s.placeDpa x.2) = none →
    ∃ t, exec (.reducerOperation (.window p tag src)) s = .next t
    ∧ t = s.endInbound i cplUnmapped [] ∧ t.cohort.inbound = dropFirst i s.cohort.inbound)
  ∧ (∀ (s : State) (p tag src a n : Nat) (i : InboundReq) (j : XJob), s.inboundHead p = some i → i.req.op = 3 →
    i.req.tag = tag → i.req.src = src → s.xlat.jobs.get? i.job = some j → j.remark = false → j.status = .ready →
    ((s.inboundPlaces i).head?.bind fun x => s.placeDpa x.2) = some a → redFits i.req.type i.req.count a = true →
    chanOf a = some n → s.redRuns a = true →
    ∃ t, ∃ ok : Bool, exec (.reducerOperation (.window p tag src)) s = .next t
    ∧ t.cohort.inbound = dropFirst i s.cohort.inbound
    ∧ (t.gath.reducers.get {} n).applied = (s.gath.reducers.get {} n).applied + (if ok then 1 else 0)
    ∧ (t.gath.reducers.get {} n).failed = (s.gath.reducers.get {} n).failed + (if ok then 0 else 1)
    ∧ ∀ p ∈ [Part.boot, .flash, .clk, .leases, .pumps, .prog, .inf, .d2d, .power], p.kept s t)
  ∧ (∀ (s : State) (u : Nat) (host : Option Bytes) (j : InfJob) (rest : List InfJob), u < 8 → s.boot.device ≠ .lost →
    s.inf.queue = [] → (s.infUnit u).jobs = j :: rest → j.started = false → s.infRuns u = true →
    ∃ t, exec (.infuserJobStart u host) s = .next t
    ∧ (j.isWarden = true → s.pool < s.reservedTokens + 40 → t = s)
    ∧ ((j.isWarden = false ∨ s.reservedTokens + 40 ≤ s.pool) → j.status ≠ 0 →
        (t.infUnit u).jobs = { j with started := true, out := [] } :: rest ∧ Only [.inf] s t)
    ∧ ((j.isWarden = false ∨ s.reservedTokens + 40 ≤ s.pool) → j.status = 0 → (parseInf j.raw).malformed j.raw j.isCopy = true →
        (t.infUnit u).jobs = { j with started := true, out := [], status := 0x12 } :: rest ∧ Only [.inf] s t)
    ∧ ((j.isWarden = false ∨ s.reservedTokens + 40 ≤ s.pool) → j.status = 0 → (parseInf j.raw).malformed j.raw j.isCopy = false →
        s.infOutside j (parseInf j.raw) = none → j.job = none →
        ((parseInf j.raw).srcSegs.any fun g => s.placeWaits (s.infPlace j (parseInf j.raw).srcKind g.addr) g.len) = false →
        (s.readInf u j (parseInf j.raw) (host.getD [])).1.bad = false →
        (∀ x, x = transform (parseInf j.raw).dir (parseInf j.raw).fmt (s.readInf u j (parseInf j.raw) (host.getD [])).1.bytes →
          (t.infUnit u).jobs = { j with started := true, out := x.1, status := x.2 } :: rest)
        ∧ (t.infUnit u).inBytes = (s.infUnit u).inBytes + (parseInf j.raw).len
        ∧ (∀ w, w ≠ u → t.infUnit w = s.infUnit w)
        ∧ ∀ p ∈ [Part.boot, .flash, .clk, .leases, .pumps, .prog, .gath, .d2d, .svc, .power], p.kept s t))
  ∧ (∀ (s : State) (u : Nat) (j : InfJob) (rest : List InfJob) (tag : SeqTag), u < 8 → s.inf.queue = [] →
    (s.infUnit u).jobs = j :: rest → j.started = true → j.owner = .seq tag → s.infRuns u = true →
    (s.sq tag.seq).program = tag.program → (∀ o ∈ (s.sq tag.seq).ops, o.id = tag.op → o.done = none) →
    ((State.outPages (parseInf j.raw).dst (j.out.take (parseInf j.raw).cap)).any fun p =>
      s.placeWaits (s.infPlace j (parseInf j.raw).dstKind p.1) p.2.length) = false →
    ∃ t, exec (.infuserJobComplete u) s = .next t
    ∧ (t.infUnit u).jobs = rest
    ∧ (j.status = 0 → j.out.length ≤ (parseInf j.raw).cap →
        (∀ p ∈ State.outPages (parseInf j.raw).dst j.out, s.infPlace j (parseInf j.raw).dstKind p.1 ≠ .outside) →
        (t.infUnit u).outBytes = (s.infUnit u).outBytes + j.out.length
        ∧ (t.sq tag.seq).ops = (s.sq tag.seq).ops.map fun (o : SeqOp) =>
            if o.id = tag.op then { o with done := some { record := toLE 8 (infWord 0 j.out.length) } } else o)
    ∧ (j.status ≠ 0 → ∃ n, n ≤ j.out.length / 4096 ∧ ∀ x : Trap,
        x = { cause := 8, status := j.status, unit := infuserUnit u } →
        (t.sq tag.seq).ops = (s.sq tag.seq).ops.map fun (o : SeqOp) =>
          if o.id = tag.op then { o with done := some { record := toLE 8 (infWord j.status (4096 * n)), trap := some x } }
          else o)
    ∧ (∀ w, w ≠ u → t.infUnit w = s.infUnit w) ∧ (∀ p, p ≠ tag.seq → t.sq p = s.sq p)
    ∧ ∀ p ∈ [Part.boot, .flash, .clk, .leases, .pumps, .gath, .d2d, .svc, .power], p.kept s t)
  ∧ (∀ (s : State) (e l : Nat) (scores : Bytes) (j : GatherJob) (rest : List GatherJob), e < 8 → l < 64 →
    (s.lane (64 * e + l)).jobs = j :: rest → j.masked = false → j.accepted = none → s.gatherRuns e = true →
    s.boot.device ≠ .lost →
    ∃ t, exec (.gatherJobAccept e l scores) s = .next t
    ∧ (∀ k, k ≠ 64 * e + l → t.lane k = s.lane k)
    ∧ (∀ st, s.checkGather (64 * e + l) j = some st →
        (t.lane (64 * e + l)).jobs = { j with
            accepted := some s.now, ended := true, masked := true
            status := if j.status = 0 then st else j.status } :: rest ∧ Only [.gath] s t)
    ∧ (s.checkGather (64 * e + l) j = none → (parseGather j.raw).needsScores = false → (parseGather j.raw).kind ≠ 0 →
        (((List.range (parseGather j.raw).blocks).flatMap (parseGather j.raw).blockSegs).any
          (s.segOutside j.caddy (parseGather j.raw).kind)) = false →
        (t.lane (64 * e + l)).jobs = { j with
            accepted := some s.now, masked := true
            mask := (List.range (parseGather j.raw).blocks).map fun b => (parseGather j.raw).classify b 0 } :: rest
        ∧ Only [.gath] s t)
    ∧ (s.checkGather (64 * e + l) j = none → (parseGather j.raw).needsScores = false → (parseGather j.raw).kind = 0 →
        ∃ id, (t.lane (64 * e + l)).jobs = { j with
            accepted := some s.now, job := some id
            mask := (List.range (parseGather j.raw).blocks).map fun b => (parseGather j.raw).classify b 0 } :: rest)
    ∧ (s.checkGather (64 * e + l) j = none → (parseGather j.raw).needsScores = true → (parseGather j.raw).scoreKind = 0 →
        ∃ id, (t.lane (64 * e + l)).jobs = { j with accepted := some s.now, job := some id } :: rest))
  ∧ (∀ (s : State) (e l : Nat) (j : GatherJob) (rest : List GatherJob), e < 8 → l < 64 →
    (s.lane (64 * e + l)).jobs = j :: rest → j.masked = true → j.ended = false →
    s.islandHalted (172 + e) = false → j.slot + j.releases.length < (parseGather j.raw).blocks →
    ∃ t, exec (.gatherSlotRelease e l) s = .next t
    ∧ (t.lane (64 * e + l)).jobs = { j with releases := j.releases ++ [s.now] } :: rest
    ∧ (∀ k, k ≠ 64 * e + l → t.lane k = s.lane k) ∧ Only [.gath] s t)
  ∧ (∀ (s : State) (e l r : Nat) (host : Option Bytes) (j : GatherJob) (rest : List GatherJob) (rs : List Nat), e < 8 →
    l < 64 → (s.lane (64 * e + l)).jobs = j :: rest → j.masked = true → j.ended = false → j.releases = r :: rs →
    s.gatherRuns e = true →
    ∃ t, exec (.gatherSlotDeliver e l host) s = .next t
    ∧ (∀ k, k ≠ 64 * e + l → t.lane k = s.lane k)
    ∧ (s.boundTo (.gather (64 * e + l)) 0 = none →
        (t.lane (64 * e + l)).jobs = { j with ended := true, status := if j.status = 0 then 0x14 else j.status } :: rest)
    ∧ (∀ c unit, s.boundTo (.gather (64 * e + l)) 0 = some (c, unit) → (s.port c).dead = false → j.allPoison = false →
        (j.mask[j.slot]?).getD 0 ≠ 0 →
        (t.lane (64 * e + l)).jobs = { j with
            slot := j.slot + 1, releases := rs
            late := j.late + (if r < s.now then 1 else 0) } :: rest
        ∧ (t.gath.engines.get {} e).skipped = (s.gath.engines.get {} e).skipped + 1
        ∧ (t.gath.engines.get {} e).avoided = (s.gath.engines.get {} e).avoided + 2 * (parseGather j.raw).size
        ∧ (∀ d, d ≠ c → t.port d = s.port d) ∧ Only [.gath, .d2d, .out, .freeCtr] s t)
    ∧ (∀ c unit, s.boundTo (.gather (64 * e + l)) 0 = some (c, unit) → (s.port c).dead = false → j.allPoison = true →
        (t.lane (64 * e + l)).jobs = { j with
            slot := j.slot + 1, releases := rs, poison := j.poison + 1
            firstFail := if j.poison = 0 then j.slot else j.firstFail, late := j.late + (if r < s.now then 1 else 0) } :: rest
        ∧ Only [.gath, .d2d, .out, .freeCtr] s t)
    ∧ (∀ c unit, s.boundTo (.gather (64 * e + l)) 0 = some (c, unit) → (s.port c).dead = false → j.allPoison = false →
        (j.mask[j.slot]?).getD 0 = 0 → j.job = none →
        (((parseGather j.raw).blockSegs j.slot).any fun g =>
          s.placeWaits (s.place j.caddy none (parseGather j.raw).kind g.addr) g.len) = false →
        (∃ j', ∃ bad : Bool, (t.lane (64 * e + l)).jobs = j' :: rest ∧ j'.slot = j.slot + 1 ∧ j'.releases = rs
          ∧ j'.poison = j.poison + (if bad then 1 else 0) ∧ j'.mask = j.mask)
        ∧ (t.gath.engines.get {} e).slots = (s.gath.engines.get {} e).slots + 1
        ∧ (t.gath.engines.get {} e).skipped = (s.gath.engines.get {} e).skipped
        ∧ ∀ p ∈ [Part.boot, .flash, .clk, .leases, .pumps, .prog, .inf, .svc, .power], p.kept s t))
  ∧ ∀ (s : State) (e l : Nat) (j : GatherJob) (rest : List GatherJob), e < 8 → l < 64 →
    (s.lane (64 * e + l)).jobs = j :: rest →
    (j.ended = true ∨ (j.masked = true ∧ (parseGather j.raw).blocks ≤ j.slot)) → j.job = none →
    (s.sq j.tag.seq).program = j.tag.program → (∀ o ∈ (s.sq j.tag.seq).ops, o.id = j.tag.op → o.done = none) →
    ∃ t, exec (.gatherJobComplete e l) s = .next t
    ∧ (t.lane (64 * e + l)).jobs = rest ∧ (∀ k, k ≠ 64 * e + l → t.lane k = s.lane k)
    ∧ t.sq j.tag.seq = { s.sq j.tag.seq with ops := (s.sq j.tag.seq).ops.map fun (o : SeqOp) =>
        if o.id = j.tag.op then { o with done := some { record := State.gatherRecord j } } else o }
    ∧ (∀ p, p ≠ j.tag.seq → t.sq p = s.sq p)
    ∧ (j.status = 0 → Only [.gath, .prog] s t) ∧ (j.status ≠ 0 → Only [.gath, .prog, .ev] s t
        ∧ t.ev = (s.raise 0x0A02 sevFailed (gatherUnit e)
            [(6, l), (2, 0), (8, j.status), (16, j.firstFail), (16, j.poison), (6, j.tag.seq), (10, 0),
             (32, (parseGather j.raw).tag)]).ev)

/-- Flits and timers of a link port. What arrives on the four lanes is taken off the line, counted as its codewords decode,
and queued (R750-R757); of the flits queued one is heard: a flit in error is discarded and asked for once (R766, R767); the
expected DATA flit is held for its segment (R762, R764), a TAG flit whose tag, number and count are right passes the segment
on, decrypted, any other ends the link (R763, R764); a LINK flit sets the credit totals, and its nak replays every
unacknowledged flit (R769, R770); the timer replays too, a silent partner, a lost reference, a lost block lock and a stuff
debt above 64 end the link (R758, R769, R781, R783, Table 17-3); the next superframe takes 160 flits (R753); a lost block lock
ends the lane's MARGIN scan; a retrain reaches ACTIVE or fails (R785). -/
def Obligations.LinkEventsTakeEffect : Prop :=
  (∀ (s : State) (p : Nat) (line : List (List Nat)) (found : List FecOutcome), s.portRuns p = true → line.length = 4 →
    found = ((wordsOfLanes (line.zipIdx.map fun l => (takeFrame (((s.lport p).rxLanes[l.2]?).getD {}) l.1).2.1)).map
      fecDecode).map (·.2) →
    ∃ t, exec (.flitReceived p line) s = .next t
    ∧ exec (.flitReceived p line) s = exec (.flitReceived p []) (s.hearLine p line)
    ∧ (∀ next, exec (.tagFlitReceived p line next) s = exec (.tagFlitReceived p next []) (s.hearLine p line))
    ∧ exec (.linkFlitReceived p line) s = exec (.linkFlitReceived p []) (s.hearLine p line)
    ∧ (t.lport p).corrected = (s.lport p).corrected + found.count .corrected
    ∧ (t.lport p).uncorrectable = (s.lport p).uncorrectable + found.count .uncorrectable)
  ∧ (∀ (s : State) (p : Nat) (f : RxFlit) (rest : List RxFlit), s.portRuns p = true → (s.lport p).rxq = f :: rest →
    f.kind = 1 → f.good = false →
    ∃ t, exec (.flitReceived p []) s = .next t
    ∧ (t.lport p).rxq = rest ∧ (t.lport p).nakSent = true ∧ (t.lport p).rxSeq = (s.lport p).rxSeq
    ∧ (t.lport p).rxHeld = (s.lport p).rxHeld
    ∧ (∀ e, e ≠ p → t.lport e = s.lport e) ∧ Only [.link, .out] s t)
  ∧ (∀ (s : State) (p : Nat) (f : RxFlit) (rest : List RxFlit), s.portRuns p = true → (s.lport p).rxq = f :: rest →
    f.kind = 1 → f.good = true →
    ∃ t, exec (.flitReceived p []) s = .next t
    ∧ (t.lport p).rxq = rest
    ∧ (f.seq = (s.lport p).rxSeq → (t.lport p).rxSeq = ((s.lport p).rxSeq + 1) % 128 ∧ (t.lport p).nakSent = false
        ∧ (t.lport p).rxHeld = (s.lport p).rxHeld ++ [f.payload])
    ∧ (f.seq ≠ (s.lport p).rxSeq → (t.lport p).rxSeq = (s.lport p).rxSeq ∧ (t.lport p).nakSent = true
        ∧ (t.lport p).rxHeld = (s.lport p).rxHeld)
    ∧ (t.lport p).acceptedAt = s.now ∧ (t.lport p).arrived = (s.lport p).arrived
    ∧ (∀ e, e ≠ p → t.lport e = s.lport e) ∧ Only [.link, .out] s t)
  ∧ (∀ (s : State) (p cls : Nat) (f : RxFlit) (rest : List RxFlit) (k : LinkKeys) (text plain : Bytes),
    s.portRuns p = true → (s.lport p).rxq = f :: rest → f.kind = 2 → f.good = true → f.seq = (s.lport p).rxSeq →
    (s.lport p).keys = some k → (s.lport p).segmentOk f = true → (s.lport p).rxHeld = [text] →
    plain = segmentText k.rxKey k.rxSalt (s.lport p).rxSegment 0 text → byteAt plain 0 % 4 = cls → cls ≤ 2 →
    (s.portUp p = true ∨ cls = 2) →
    ∃ t, exec (.tagFlitReceived p [] []) s = .next t
    ∧ (t.lport p).rxSeq = ((s.lport p).rxSeq + 1) % 128 ∧ (t.lport p).rxHeld = []
    ∧ (t.lport p).rxSegment = (s.lport p).rxSegment + 1
    ∧ (t.lport p).arrived = (s.lport p).arrived
        ++ (splitTx 64 cls ((s.lport p).rxPart.get [] cls ++ plain.drop 1)).1.map (fun x => (cls, x))
    ∧ (t.lport p).freed.get 0 cls = ((s.lport p).freed.get 0 cls + 1) % 65536
    ∧ (∀ e, e ≠ p → t.lport e = s.lport e) ∧ Only [.link, .out] s t)
  ∧ (∀ (s : State) (p : Nat) (f : RxFlit) (rest : List RxFlit), s.portRuns p = true → (s.lport p).rxq = f :: rest →
    f.kind = 2 → f.good = true → s.portUp p = true → f.seq = (s.lport p).rxSeq → (s.lport p).segmentOk f = false →
    ∃ t, exec (.tagFlitReceived p [] []) s = .next t
    ∧ (t.lport p).state = (if Retries s p then portRetrain else portOff) ∧ (t.lport p).arrived = [])
  ∧ (∀ (s : State) (p : Nat) (f : RxFlit) (rest : List RxFlit), s.portRuns p = true → (s.lport p).rxq = f :: rest →
    f.kind = 3 → f.good = true → bitOf (byteAt f.payload 0) 1 = false →
    (∀ u ∈ (s.lport p).unacked, u.seq ≠ f.ack ∧ u.replays < 15) →
    ∃ t, exec (.linkFlitReceived p []) s = .next t
    ∧ (∀ c, c < 3 → (t.lport p).credit.get 0 c = fieldAt f.payload (2 + 2 * c) 2)
    ∧ (t.lport p).replays
        = (s.lport p).replays + (if bitOf (byteAt f.payload 0) 0 then (s.lport p).unacked.length else 0)
    ∧ (t.lport p).state = (s.lport p).state ∧ (∀ e, e ≠ p → t.lport e = s.lport e) ∧ Only [.link, .out] s t)
  ∧ (∀ (s : State) (p : Nat), s.portRuns p = true → (s.lport p).unacked ≠ [] → (s.lport p).ackedAt + 2000 ≤ s.now →
    ∃ t, exec (.replayTimeout p) s = .next t
    ∧ ((∀ u ∈ (s.lport p).unacked, u.replays < 15) →
        t.lport p = { s.lport p with unacked := (s.lport p).unacked.map fun (u : SentFlit) => { u with replays := u.replays + 1 }
                                     replays := (s.lport p).replays + (s.lport p).unacked.length
                                     ackedAt := s.now, line := (t.lport p).line }
        ∧ (∀ e, e ≠ p → t.lport e = s.lport e) ∧ Only [.link, .out] s t)
    ∧ ((∃ u ∈ (s.lport p).unacked, 15 ≤ u.replays) → s.portUp p = true → Leaves p 2 7 s t))
  ∧ (∀ (s : State) (p : Nat), ∃ t, exec (.partnerSilent p) s = .next t
    ∧ (s.portRuns p = true → (s.lport p).acceptedAt + 10000 ≤ s.now → s.portUp p = true → Leaves p 3 7 s t)
    ∧ (s.now < (s.lport p).acceptedAt + 10000 → t = s) ∧ (s.portUp p = false → t = s))
  ∧ (∀ (s : State) (q : Nat), q < 4 → ∃ t, exec (.linkRefclkLost q) s = .next t
    ∧ (∀ i, i < 12 → t.portUp (12 * q + i) = false)
    ∧ (∀ i, i < 12 → s.portUp (12 * q + i) = true → (t.lport (12 * q + i)).state = portOff
        ∨ (t.lport (12 * q + i)).state = portRetrain)
    ∧ (∀ p, s.portUp p = true → p / 12 ≠ q → t.portUp p = true))
  ∧ (∀ (s : State) (p lane : Nat), ∃ t, exec (.blockLockLost p lane) s = .next t
    ∧ (s.portUp p = true → (s.lport p).scanning = none → Leaves p 4 lane s t)
    ∧ (∀ start, s.portUp p = false → (s.lport p).scanning = some (lane, start) →
        t.lport p = { s.lport p with scanning := none }
        ∧ (∀ r ∈ t.kym.running, r.opcode = 0x1703 → r.ref = portUnit p → r.outcome.isSome = true)
        ∧ Only [.link, .running] s t))
  ∧ (∀ (s : State) (p lane : Nat) (flits : List Bytes) (sent : List (LinkLane × List Nat)), s.portRuns p = true → lane < 4 →
    flits = (s.lport p).line.take 160 ++ List.replicate (160 - ((s.lport p).line.take 160).length)
      (flitBytes 0 0 (((s.lport p).rxSeq + 127) % 128) []) →
    sent = (List.range 4).map (fun l =>
      sendFrame (((s.lport p).txLanes[l]?).getD {}) (laneSymbols (encodeWords (flitSymbols flits)) l)) →
    ∃ t, exec (.stuffDebtOverflow p lane 1) s = .next t
    ∧ Out.lanes p (sent.map (·.2)) ∈ t.out
    ∧ (s.portUp p = false ∨ (∀ x ∈ sent, x.1.debt ≤ 64) →
        t.lport p = { s.lport p with line := (s.lport p).line.drop 160, txLanes := sent.map (·.1) }
        ∧ (∀ e, e ≠ p → t.lport e = s.lport e) ∧ Only [.link, .out] s t)
    ∧ (∀ l, s.portUp p = true →
        (if (sent[lane]?).any (fun x => decide (64 < x.1.debt)) then some lane
          else sent.findIdx? fun x => decide (64 < x.1.debt)) = some l → Leaves p 6 l s t)
    ∧ (∀ n, exec (.stuffDebtOverflow p lane (n + 2)) s
        = if s.portUp p = true ∧ ∃ x ∈ sent, 64 < x.1.debt then .next t
          else exec (.stuffDebtOverflow p lane (n + 1)) (s.putSuperframe p)))
  ∧ ∀ (s : State) (p : Nat) (ok : Bool) (cause lane since f n : Nat), p < 48 → (s.lport p).state = portRetrain →
    (s.lport p).work = some (.retrain cause lane since f n) → ∃ t, exec (.linkRetrainEnd p ok) s = .next t
    ∧ ((ok = true ∧ (s.lport p).keyed = true ∧ (s.lport p).manifest ≠ []) →
        (t.lport p).state = portActive ∧ (t.lport p).work = none ∧ t.unitState (portUnit p) = .inService)
    ∧ ((ok = false ∨ (s.lport p).keyed = false ∨ (s.lport p).manifest = []) →
        (t.lport p).state = portOff ∧ t.unitState (portUnit p) = .outOfService)
    ∧ (t.order (orderRef 6 (portUnit p))).triggered = false
    ∧ (∀ e, e ≠ p → t.lport e = s.lport e) ∧ Only [.link, .svc, .ev, .orders] s t

/-- Training of a link port. Frames of all four lanes lead from DETECT to EQUALISE, lanes done at both ends to ALIGN, an
aligned port within 1,024 symbols to IDENTIFY, with a fresh ephemeral key (R773, R775, Table 17-2); keys agreed with a
verified partner are loaded, where none are agreed the training ends (R775-R777, R780); the manifest decides between ACTIVE and QUARANTINE (R778, R827). A checker locks lane by
lane (R787), a QUALIFY ends with the port untrained (R789), and a MARGIN result is held by lane (R791). -/
def Obligations.TrainingTakesEffect : Prop :=
  (∀ (s : State) (p : Nat) (f : TrainFrame) (w : PortWork), p < 48 → s.islandHalted (92 + p) = false →
    (s.lport p).work = some w → f.lane < 4 → byteAt f.bytes 0 = f.lane → fieldAt f.bytes 8 2 = flitCrc (f.bytes.take 8) →
    ∃ t, exec (.trainingFrame p f) s = .next t
    ∧ (f.fails = false → (s.lport p).state = portDetect →
        t.lport p = { s.lport p with
          seen := Nat.lor (s.lport p).seen (2 ^ f.lane)
          state := if Nat.lor (s.lport p).seen (2 ^ f.lane) = 15 then portEqualise else portDetect }
        ∧ (∀ e, e ≠ p → t.lport e = s.lport e) ∧ Only [.link, .out] s t)
    ∧ (f.fails = false → (s.lport p).state = portEqualise → f.done = true → bitOf (byteAt f.bytes 3) 6 = true →
        t.lport p = { s.lport p with
          adapted := Nat.lor (s.lport p).adapted (2 ^ f.lane)
          state := if Nat.lor (s.lport p).adapted (2 ^ f.lane) = 15 then
              (if w = .qualify then portQualify else portAlign) else portEqualise }
        ∧ (∀ e, e ≠ p → t.lport e = s.lport e) ∧ Only [.link, .out] s t)
    ∧ (∀ skew, f.fails = false → (s.lport p).state = portAlign → f.aligned = some skew → skew ≤ 1024 →
        t.lport p = { s.lport p with state := portIdentify, keys := none, ephemeral := (t.lport p).ephemeral
                                     txLanes := (t.lport p).txLanes, rxLanes := f.lanes, line := [], rxq := [] }
        ∧ (∃ d, (t.lport p).ephemeral = some d ∧ Out.identify p (publicKey d) ∈ t.out)
        ∧ (∀ e, e ≠ p → t.lport e = s.lport e) ∧ Only [.link, .out, .freeCtr] s t)
    ∧ (∀ op, w = .train op → ((f.fails = true ∧ (s.lport p).state = portDetect)
          ∨ (f.fails = false ∧ (s.lport p).state = portAlign ∧ ∃ skew, f.aligned = some skew ∧ 1024 < skew)) →
        t.lport p = (s.lport p).untrained ∧ t.unitState (portUnit p) = .outOfService
        ∧ (∀ r ∈ t.kym.running, r.opcode = op → r.ref = portUnit p → r.outcome.isSome = true)
        ∧ (∀ e, e ≠ p → t.lport e = s.lport e) ∧ Only [.link, .svc, .ev, .running] s t))
  ∧ (∀ (s : State) (p : Nat) (chain : Bool) (i : PartnerIdentity), p < 48 → (s.lport p).keys = none →
    ((s.lport p).state = portIdentify ∨ (s.lport p).state = portRetrain) →
    ∃ t, exec (.identifyExchange p chain i) s = .next t
    ∧ (∀ k, s.agreedKeys p chain i = some k → s.sealed.entropyFailed = false → s.sealed.unlocked = none →
        (t.lport p).keys = some k ∧ (t.lport p).identity = sha384 i.key ∧ (t.lport p).state = (s.lport p).state
        ∧ (t.lport p).rxSeq = 0 ∧ (t.lport p).rxSegment = 0 ∧ Queued p clsMgmt s.manifestMessage t
        ∧ (∀ e, e ≠ p → t.lport e = s.lport e) ∧ Only [.link, .out] s t)
    ∧ (∀ op, (s.agreedKeys p chain i = none ∨ s.sealed.entropyFailed = true ∨ s.sealed.unlocked ≠ none) →
        (s.lport p).state = portIdentify → (s.lport p).work = some (.train op) →
        t.lport p = (s.lport p).untrained ∧ t.unitState (portUnit p) = .outOfService
        ∧ (∀ e, e ≠ p → t.lport e = s.lport e) ∧ Only [.link, .svc, .ev, .running] s t)
    ∧ ((s.agreedKeys p chain i = none ∨ s.sealed.entropyFailed = true ∨ s.sealed.unlocked ≠ none) →
        (s.lport p).state = portRetrain → t = s))
  ∧ (∀ (s : State) (p op : Nat) (m : Bytes) (rest : List (Nat × Bytes)), p < 48 → (s.lport p).keyed = true →
    (s.lport p).state = portIdentify → (s.lport p).work = some (.train op) →
    (s.lport p).arrived = (clsMgmt, m) :: rest → byteAt m 0 = 1 →
    ∃ t, exec (.manifestMessage p) s = .next t
    ∧ (t.lport p).member = byteAt m 1 ∧ (t.lport p).manifest = (m.drop 8).take 48 ∧ (t.lport p).work = none
    ∧ (s.compatible m ((s.lport p).identity == s.flash.identity) = true →
        (t.lport p).state = portActive ∧ t.unitState (portUnit p) = .inService)
    ∧ (s.compatible m ((s.lport p).identity == s.flash.identity) = false →
        (t.lport p).state = portQuarantine ∧ t.unitState (portUnit p) = .outOfService
        ∧ ∀ c ∈ (t.lport p).arrived, c.1 = clsMgmt)
    ∧ (∀ r ∈ t.kym.running, r.opcode = op → r.ref = portUnit p → r.outcome.isSome = true)
    ∧ (∀ e, e ≠ p → t.lport e = s.lport e) ∧ Only [.link, .svc, .ev, .running] s t)
  ∧ (∀ (s : State) (p lane : Nat), p < 48 → lane < 4 → (s.lport p).state = portQualify →
    ∃ t, exec (.qualifyCheckerLock p lane) s = .next t
    ∧ t.lport p = { s.lport p with
        locked := Nat.lor (s.lport p).locked (2 ^ lane)
        lockedAt := if Nat.lor (s.lport p).locked (2 ^ lane) = 15 then (s.lport p).lockedAt.or (some s.now) else none }
    ∧ (∀ e, e ≠ p → t.lport e = s.lport e) ∧ Only [.link] s t)
  ∧ (∀ (s : State) (p : Nat) (errors : List Nat), p < 48 → (s.lport p).work = some .qualify →
    ∃ t, exec (.qualifyEnd p errors) s = .next t
    ∧ t.lport p = (s.lport p).untrained
    ∧ (∀ r ∈ t.kym.running, r.opcode = 0x1702 → r.ref = portUnit p → r.outcome.isSome = true)
    ∧ (∀ e, e ≠ p → t.lport e = s.lport e) ∧ Only [.link, .running] s t)
  ∧ ∀ (s : State) (p lane start : Nat) (m : MarginScan), (s.lport p).scanning = some (lane, start) →
    ∃ t r, exec (.marginScanEnd p lane m) s = .next t
    ∧ t.lport p = { s.lport p with scanning := none, margins := (s.lport p).margins.set lane r }
    ∧ r.length = 6208 ∧ byteAt r 0 = lane % 256 ∧ fieldAt r 16 8 = start % 2 ^ 64
    ∧ fieldAt r 24 8 = s.follower (92 + p) % 2 ^ 64
    ∧ (∀ i v, m.cells[i]? = some v → i < 3072 → fieldAt r (64 + 2 * i) 2 = min v 65535)
    ∧ (∀ r ∈ t.kym.running, r.opcode = 0x1703 → r.ref = portUnit p → r.outcome.isSome = true)
    ∧ (∀ e, e ≠ p → t.lport e = s.lport e) ∧ Only [.link, .running] s t

/-- Requests and completions of the cohort. A REQ for another member is relayed, or answered NO_ROUTE (R800, R801, R823);
one for this member is answered FAILED, NAK_EPOCH or the status of the first failing check of Table 18-4 (R817, R836,
R838), or goes to its translation; a translated read is answered with its bytes and a translated write once it is applied
(R817, R820); a CPL ends the request with its tag (R822), and one for another member returns where its request came from
(R824). -/
def Obligations.RemoteRequestsTakeEffect : Prop :=
  (∀ (s : State) (p : Nat) (b : Bytes) (rest : List (Nat × Bytes)), s.portTalks p = true →
    (∀ i ∈ s.cohort.inbound, i.port ≠ p) → (s.lport p).arrived = (clsReq, b) :: rest →
    ∃ t, exec (.remoteRequest p []) s = .next t
    ∧ (t.lport p).arrived = rest
    ∧ ((parseReq b).dst ≠ s.cohort.member → s.boot.device ≠ .lost →
        ((parseReq b).relayed = true → CplQueued p (parseReq b).tag (parseReq b).src 7 [] s t
            ∧ (t.lport p).refused = min 65535 ((s.lport p).refused + 1))
        ∧ ((parseReq b).relayed = false → (s.mayRelay = false ∨ s.relayPort (parseReq b).dst (parseReq b).offset = none) →
            CplQueued p (parseReq b).tag (parseReq b).src 7 [] s t)
        ∧ (∀ o, (parseReq b).relayed = false → s.mayRelay = true →
            s.relayPort (parseReq b).dst (parseReq b).offset = some o →
            Queued o clsReq (markRelayed b) t
            ∧ t.cohort = { s.cohort with
                relayed := s.cohort.relayed ++ [⟨o, (parseReq b).tag, (parseReq b).src, p⟩] })
        ∧ Only [.link, .cohort, .out] s t)
    ∧ ((parseReq b).dst = s.cohort.member → (s.boot.device = .lost ∨ (parseReq b).op < 1 ∨ 3 < (parseReq b).op) →
        CplQueued p (parseReq b).tag (parseReq b).src 6 [] s t ∧ Only [.link, .out] s t)
    ∧ ((parseReq b).dst = s.cohort.member → s.boot.device ≠ .lost → 1 ≤ (parseReq b).op → (parseReq b).op ≤ 3 →
        ((parseReq b).epoch ≠ s.cohort.epoch.toNat →
            CplQueued p (parseReq b).tag (parseReq b).src 5 [] s t ∧ Only [.link, .cohort, .ev, .out] s t)
        ∧ (∀ st, (parseReq b).epoch = s.cohort.epoch.toNat → s.reqStatus (parseReq b) = some st →
            CplQueued p (parseReq b).tag (parseReq b).src st [] s t ∧ Only [.link, .out] s t)
        ∧ ((parseReq b).epoch = s.cohort.epoch.toNat → s.reqStatus (parseReq b) = none →
            (∃ i ∈ t.cohort.inbound, i.port = p ∧ i.req = parseReq b)
            ∨ ∃ st data, CplQueued p (parseReq b).tag (parseReq b).src st data s t)))
  ∧ (∀ (s : State) (p n o a : Nat) (i : InboundReq) (j : XJob) (g : Seg), s.portTalks p = true → s.inboundHead p = some i →
    s.boot.device ≠ .lost → s.xlat.jobs.get? i.job = some j → j.remark = false → j.status = .ready →
    s.inboundPlaces i = [(g, .polder n o)] → s.placeDpa (.polder n o) = some a → s.inboundWaits i = false →
    ∃ t, exec (.remoteRequest p []) s = .next t
    ∧ (i.req.op = 1 → t.cohort.inbound = dropFirst i s.cohort.inbound
        ∧ ((s.polderRead n o g.len false).2.bad = none →
            CplQueued p i.req.tag i.req.src 0 (s.polderRead n o g.len false).2.bytes s t)
        ∧ ((s.polderRead n o g.len false).2.bad ≠ none → CplQueued p i.req.tag i.req.src 1 [] s t))
    ∧ (i.req.op = 2 → t.cohort.inbound = dropFirst i s.cohort.inbound
        ∧ t.mem = (s.polderWrite n o ((i.req.data.drop g.tile).take g.len)).mem
        ∧ t.basin = (s.polderWrite n o ((i.req.data.drop g.tile).take g.len)).basin
        ∧ CplQueued p i.req.tag i.req.src 0 [] s t))
  ∧ (∀ (s : State) (p : Nat) (b : Bytes) (rest : List (Nat × Bytes)) (r : RemoteReq), s.portTalks p = true →
    (s.lport p).arrived = (clsCpl, b) :: rest → byteAt b 3 % 64 = s.cohort.member →
    s.cohort.reqs.find? (fun r => r.port == p && r.tag == byteAt b 1) = some r → s.cohort.waiting = [] →
    ∃ t, exec (.remoteCompletion p) s = .next t
    ∧ (t.lport p).arrived = rest
    ∧ (∀ u, r.user = .unit u → t.cohort = { s.cohort with reqs := dropFirst r s.cohort.reqs } ∧ Only [.link, .cohort] s t)
    ∧ (∀ q id o kind addr ast type n data ordered job, r.user = .red q id →
        (s.sq q).ops.find? (fun o => o.id == id) = some o →
        o.work = .red kind addr ast type n data ordered job none →
        t.sq q = { s.sq q with ops := (s.sq q).ops.map fun (o : SeqOp) =>
          if o.id = id then { o with work := .red kind addr ast type n data ordered job (some (decide (byteAt b 6 = 0))) }
          else o }
        ∧ t.cohort = { s.cohort with reqs := dropFirst r s.cohort.reqs } ∧ Only [.link, .cohort, .prog] s t)
    ∧ (∀ k index tile dva d x, r.user = .pump k index tile dva → byteAt b 6 ≠ 0 → s.descAt k index = some d →
        d.pieces.find? (fun x => x.tile == tile) = some x → (parseDesc d.raw).isTx = true → (s.pchan k).halt = none →
        ∃ h, (t.pchan k).halt = some h ∧ h.cause = 0x15 ∧ h.index = index))
  ∧ ∀ (s : State) (p : Nat) (b : Bytes) (rest : List (Nat × Bytes)) (r : Relayed), s.portTalks p = true →
    (s.lport p).arrived = (clsCpl, b) :: rest → byteAt b 3 % 64 ≠ s.cohort.member → s.boot.device ≠ .lost →
    s.cohort.relayed.find? (fun r => r.outPort == p && r.tag == byteAt b 1 && r.src == byteAt b 3 % 64) = some r →
    ∃ t, exec (.remoteCompletion p) s = .next t
    ∧ (bitOf (byteAt b 2) 6 = true → (t.lport p).refused = min 65535 ((s.lport p).refused + 1) ∧ t.cohort = s.cohort)
    ∧ (bitOf (byteAt b 2) 6 = false → t.cohort = { s.cohort with relayed := dropFirst r s.cohort.relayed }
        ∧ (s.portUp r.inPort = true → Queued r.inPort clsCpl (markRelayed b) t))
    ∧ Only [.link, .cohort, .out] s t

/-- Time among members. A request carries t1 and a number (R828), is answered with t1, t2 and t3, and its response adds one
exchange to the last 16 and ends the exchange (R829); a device that steers towards a leader takes the estimate and the rate
correction from it, at most 500 ppm (R832); the leader drives COHORT_SYNC at each whole millisecond of TBASE, a follower's
estimate is the negated phase of the edge (R833), and a silent source ends the steering (R834). -/
def Obligations.CohortTimeTakesEffect : Prop :=
  (∀ (s : State) (p : Nat), s.portTalks p = true → ∃ t, exec (.timeRequestSend p) s = .next t
    ∧ t.cohort.times.get {} p = { s.cohort.times.get {} p with
        number := ((s.cohort.times.get {} p).number + 1) % 65536, sentAt := some (s.follower (92 + p)) }
    ∧ Queued p clsMgmt (timeMessage 0 (((s.cohort.times.get {} p).number + 1) % 65536) (s.follower (92 + p)) 0 0) t
    ∧ (∀ e, e ≠ p → t.cohort.times.get {} e = s.cohort.times.get {} e) ∧ Only [.link, .cohort, .out] s t)
  ∧ (∀ (s : State) (p : Nat) (b : Bytes) (rest : List (Nat × Bytes)), s.portTalks p = true →
    (s.lport p).arrived = (clsMgmt, b) :: rest → byteAt b 0 = 2 → byteAt b 1 = 0 →
    ∃ t, exec (.timeMessage p) s = .next t
    ∧ (t.lport p).arrived = rest
    ∧ Queued p clsMgmt (timeMessage 1 (fieldAt b 2 2) (fieldAt b 8 8) (s.follower (92 + p)) (s.follower (92 + p))) t
    ∧ Only [.link, .out] s t)
  ∧ (∀ (s : State) (p : Nat) (b : Bytes) (rest : List (Nat × Bytes)) (now t1 t2 t3 : Int) (l : List (Int × Int)) (e : Int),
    s.portTalks p = true → (s.lport p).arrived = (clsMgmt, b) :: rest → byteAt b 0 = 2 → byteAt b 1 ≠ 0 →
    (s.cohort.times.get {} p).sentAt = some (fieldAt b 8 8) → (s.cohort.times.get {} p).number = fieldAt b 2 2 →
    now = s.follower (92 + p) → t1 = fieldAt b 8 8 → t2 = fieldAt b 16 8 → t3 = fieldAt b 24 8 →
    l = (((t2 - t1) - (now - t3), (now - t1) - (t3 - t2)) :: (s.cohort.times.get {} p).exchanges).take 16 →
    e = estimateOf l →
    ∃ t, exec (.timeMessage p) s = .next t
    ∧ (t.lport p).arrived = rest
    ∧ (t.cohort.times.get {} p).sentAt = none ∧ (t.cohort.times.get {} p).exchanges = l
    ∧ (∀ c, c ≠ p → t.cohort.times.get {} c = s.cohort.times.get {} c)
    ∧ (s.steersBy p = true → t.cohort.steering = true ∧ t.cohort.estimate = e
        ∧ t.cohort.correction = max (-50000) (min 50000 (50 * e)))
    ∧ (s.steersBy p = false → t.cohort.estimate = s.cohort.estimate ∧ t.cohort.correction = s.cohort.correction)
    ∧ Only [.link, .cohort, .ev] s t)
  ∧ (∀ s : State, ∃ t, exec .cohortSyncPulse s = .next t
    ∧ t = if s.cohort.leader ≠ 0xFF ∧ s.cohort.leader = s.cohort.member ∧ s.now % 1000000 = 0 then s.emit .syncPulse else s)
  ∧ (∀ (s : State) (e : Int), s.steersBy syncSource = true →
    e = (if 500000 < s.now % 1000000 then 1000000 - ((s.now % 1000000 : Nat) : Int) else -((s.now % 1000000 : Nat) : Int)) →
    ∃ t, exec .cohortSyncEdge s = .next t
    ∧ t.cohort.lastEdge = some s.now ∧ t.cohort.steering = true ∧ t.cohort.estimate = e
    ∧ t.cohort.correction = max (-50000) (min 50000 (50 * e)) ∧ Only [.cohort, .ev] s t)
  ∧ ∀ s : State, ∃ t, exec .cohortSyncTimeout s = .next t
    ∧ (s.steersBy syncSource = true → (∀ a, s.cohort.lastEdge = some a → a + 10000000 ≤ s.now) →
        t.cohort = { s.cohort with steering := false, correction := 0 } ∧ Only [.cohort] s t)
    ∧ ((s.steersBy syncSource = false ∨ ∃ a, s.cohort.lastEdge = some a ∧ s.now < a + 10000000) → t = s)

/-- BAR2, function resets and virtual functions. A whole map write maps the slot where the polder is the function's and has
the granule, else leaves status 1 (R845); a low half waits for its high half (R846); an access of a slot that does not map,
or a write without W, reads all ones or is dropped, and is noted (R848); a mapped access reaches the polder's bytes (R844,
R849). A reset leaves a function's queues, histories, registers and maps at their reset values, its leases gone and its
channels closed (R100, R124-R126, R215, R270, R871); VF enable and disable set the number of VFs (R868, R869). -/
def Obligations.HostFunctionsTakeEffect : Prop :=
  (∀ (s : State) (f n : Nat) (v : BitVec 64), s.barUp f = true → n < slotLimit f →
    ∃ t m, exec (.bar2MapWrite f n (.full v)) s = .next t
    ∧ (t.hostFn f).bar2.get {} n = m ∧ m.polder = bitsOf v.toNat 0 8 ∧ m.granule = bitsOf v.toNat 8 11
    ∧ m.w = bitOf v.toNat 62 ∧ m.lowHeld = none
    ∧ (bitOf v.toNat 63 = false → m.enable = false ∧ m.status = 0)
    ∧ (∀ p, bitOf v.toNat 63 = true → s.polder? (bitsOf v.toNat 0 8) = some p →
        s.assignedFn (polderUnit (bitsOf v.toNat 0 8)) = f → bitsOf v.toNat 8 11 < p.size → m.enable = true ∧ m.status = 0)
    ∧ (bitOf v.toNat 63 = true → (s.polder? (bitsOf v.toNat 0 8) = none
          ∨ s.assignedFn (polderUnit (bitsOf v.toNat 0 8)) ≠ f
          ∨ ∃ p, s.polder? (bitsOf v.toNat 0 8) = some p ∧ p.size ≤ bitsOf v.toNat 8 11) → m.enable = false ∧ m.status = 1)
    ∧ (∀ k, k ≠ n → (t.hostFn f).bar2.get {} k = (s.hostFn f).bar2.get {} k)
    ∧ (∀ g, g ≠ f → t.hostFn g = s.hostFn g) ∧ Only [.host] s t)
  ∧ (∀ (s : State) (f n : Nat) (v : BitVec 32), s.barUp f = true → n < slotLimit f →
    ∃ t, exec (.bar2MapWrite f n (.low v)) s = .next t
    ∧ (t.hostFn f).bar2.get {} n = { (s.hostFn f).bar2.get {} n with lowHeld := some v.toNat } ∧ Only [.host] s t)
  ∧ (∀ (s : State) (f n low : Nat) (v : BitVec 32), s.barUp f = true → n < slotLimit f →
    ((s.hostFn f).bar2.get {} n).lowHeld = some low → low < 2 ^ 32 →
    exec (.bar2MapWrite f n (.high v)) s = exec (.bar2MapWrite f n (.full (BitVec.ofNat 64 (low + v.toNat * 2 ^ 32)))) s)
  ∧ (∀ (s : State) (f n lo len : Nat) (m : Bar2Map), s.barUp f = true → n < slotLimit f → lo + len ≤ 0x10000000 →
    lo % 4096 + len ≤ 4096 → 0 < len → m = (s.hostFn f).bar2.get {} n →
    (m.enable = false ∨ s.polder? m.polder = none) →
    ∃ t, exec (.bar2Access f { offset := n * 0x10000000 + lo, len := len }) s = .next t
    ∧ t.out = .data (List.replicate len 0xFF) false :: s.out ∧ (t.hostFn f).unmapped = true ∧ Only [.host, .out] s t)
  ∧ (∀ (s : State) (f n lo : Nat) (b : Bytes) (m : Bar2Map), s.barUp f = true → n < slotLimit f →
    lo + b.length ≤ 0x10000000 → lo % 4096 + b.length ≤ 4096 → 0 < b.length → m = (s.hostFn f).bar2.get {} n →
    (m.enable = false ∨ m.w = false ∨ s.polder? m.polder = none) →
    ∃ t, exec (.bar2Access f { offset := n * 0x10000000 + lo, len := 0, write := some b }) s = .next t
    ∧ (t.hostFn f).unmapped = true ∧ Only [.host] s t)
  ∧ (∀ (s : State) (f n lo len : Nat) (m : Bar2Map) (p : Polder), s.barUp f = true → n < slotLimit f →
    lo + len ≤ 0x10000000 → lo % 4096 + len ≤ 4096 → 0 < len → m = (s.hostFn f).bar2.get {} n → m.enable = true →
    s.polder? m.polder = some p → s.boot.device ≠ .lost →
    ((State.linesTouched p (m.granule * 0x10000000 + lo) len).any s.lineWaits) = false →
    ∃ t, exec (.bar2Access f { offset := n * 0x10000000 + lo, len := len }) s = .next t
    ∧ .data (s.polderRead m.polder (m.granule * 0x10000000 + lo) len false).2.bytes
        (s.polderRead m.polder (m.granule * 0x10000000 + lo) len false).2.bad.isSome ∈ t.out
    ∧ ∀ x ∈ [Part.boot, .flash, .clk, .leases, .host, .xlat, .pumps, .prog, .inf, .gath, .d2d, .power], x.kept s t)
  ∧ (∀ (s : State) (f n lo : Nat) (b : Bytes) (m : Bar2Map) (p : Polder), s.barUp f = true → n < slotLimit f →
    lo + b.length ≤ 0x10000000 → lo % 4096 + b.length ≤ 4096 → 0 < b.length → m = (s.hostFn f).bar2.get {} n →
    m.enable = true → m.w = true → s.polder? m.polder = some p →
    ((State.linesTouched p (m.granule * 0x10000000 + lo) b.length).any s.lineWaits) = false →
    ∃ t, exec (.bar2Access f { offset := n * 0x10000000 + lo, len := 0, write := some b }) s = .next t
    ∧ (s.boot.device ≠ .lost → t = s.polderWrite m.polder (m.granule * 0x10000000 + lo) b)
    ∧ (s.boot.device = .lost → t = s))
  ∧ (∀ (s : State) (f : Nat), s.barUp f = true → ∃ t, exec (.functionLevelReset f) s = .next t
    ∧ (∀ g, g = f ∨ (f = 0 ∧ 1 ≤ g ∧ g ≤ s.host.vfs) →
        t.kymFn g = {} ∧ t.hostFn g = {} ∧ t.ev.queues.get? g = none ∧ (∀ q, q < 4 → t.pair? g q = none)
        ∧ (∀ c, c < 5 → t.kym.seqs.get? (5 * g + c) = none) ∧ (∀ l ∈ t.kym.leases, l.holder ≠ g)
        ∧ (∀ k, s.isHostChan k = true → (s.pchan k).fn = g → t.isHostChan k = false))
    ∧ (f ≠ 0 → ∀ g, g ≠ f → t.kymFn g = s.kymFn g ∧ t.hostFn g = s.hostFn g)
    ∧ t.host.vfs = (if f = 0 then 0 else s.host.vfs)
    ∧ ∀ x ∈ [Part.boot, .flash, .clk, .orders, .mem, .basin, .svc, .sealed, .inf, .gath, .prog, .d2d, .link, .cohort,
             .power], x.kept s t)
  ∧ (∀ (s : State) (k : Nat), s.barUp 0 = true → s.boot.config = .full → k ≤ 127 → s.host.vfs ≤ k →
    ∃ t, exec (.vfEnable k) s = .next t
    ∧ t.host.vfs = k ∧ t.host.vfEnable = true
    ∧ (∀ g, s.host.vfs < g → g ≤ k → t.kymFn g = {} ∧ t.hostFn g = {} ∧ (∀ q, q < 4 → t.pair? g q = none))
    ∧ (∀ g, (g ≤ s.host.vfs ∨ k < g) → t.kymFn g = s.kymFn g ∧ t.hostFn g = s.hostFn g)
    ∧ Only [.fns, .urgent, .pairs, .rings, .seqs, .intake, .host, .msix, .ev] s t)
  ∧ ∀ (s : State) (k : Nat), s.barUp 0 = true → k < s.host.vfs → ∃ t, exec (.vfDisable k) s = .next t
    ∧ t.host.vfs = k ∧ t.host.vfEnable = decide (k ≠ 0)
    ∧ (∀ g, k < g → g ≤ s.host.vfs → t.kymFn g = {} ∧ t.hostFn g = {} ∧ (∀ l ∈ t.kym.leases, l.holder ≠ g)
        ∧ (∀ q, q < 4 → t.pair? g q = none))
    ∧ (∀ g, g ≤ k → t.kymFn g = s.kymFn g ∧ t.hostFn g = s.hostFn g)
    ∧ ∀ x ∈ [Part.boot, .flash, .clk, .orders, .mem, .basin, .svc, .sealed, .inf, .gath, .prog, .d2d, .link, .cohort,
             .power], x.kept s t

/-- IDE, SPDM and the sealed island. A TLP that fails its MAC makes its stream Insecure (R861); a KEY_PROG loads one key in
a secured session, and none while debug is unlocked (R931, R940); a request of another SPDM version, or one that needs
randomness the failed source does not give, is answered ERROR (R862, R910), an unlisted one Unsupported, measurements are
those of Table 19-5 (R863, R874), a session begins with FINISH and ends with END_SESSION (R929, R932); a glitch empties
every key slot, locks debug, zeroes the keys of the links, and takes IDE streams, sessions and running rekeys with it (R907,
R925-R928); a
source that passes none of its start-up tests stays failed (R910). -/
def Obligations.SecurityEventsTakeEffect : Prop :=
  (∀ (s : State) (i : Nat) (x : IdeStream), s.host.ide.get? i = some x → ∃ t, exec (.ideMacFailure i) s = .next t
    ∧ (x.state = .secure → s.islandHalted islHost = false →
        t.host.ide.get? i = some { x with state := .insecure }
        ∧ t.ev = (s.raise 0x0F01 sevInfo (functionUnit x.fn) [(4, 1), (8, i)]).ev
        ∧ (∀ j, j ≠ i → t.host.ide.get? j = s.host.ide.get? j) ∧ Only [.host, .ev] s t)
    ∧ (x.state ≠ .secure → t = s))
  ∧ (∀ (s : State) (p : IdeKeyProg), s.doeUp = true → ∃ t, exec (.ideKmKeyProg p) s = .next t
    ∧ (s.host.spdmSession = false → t = s.emit (.doe .invalid))
    ∧ (∀ x, s.host.spdmSession = true → s.host.ide.get? p.stream = some x → s.sealed.unlocked = none → p.substream ≤ 2 →
        p.keySet ≤ 1 → t.out = .doe (.keyProg p.stream true) :: s.out
        ∧ (∃ y, t.host.ide.get? p.stream = some y
            ∧ y.keys.get? (p.substream + 8 * (if p.transmit then 1 else 0) + 16 * p.keySet) = some p.key
            ∧ y.state = x.state)
        ∧ (∀ j, j ≠ p.stream → t.host.ide.get? j = s.host.ide.get? j) ∧ Only [.host, .out] s t)
    ∧ (s.host.spdmSession = true → (s.sealed.unlocked.isSome = true ∨ 2 < p.substream ∨ 1 < p.keySet
          ∨ s.host.ide.get? p.stream = none) → t = s.emit (.doe (.keyProg p.stream false))))
  ∧ (∀ (s : State) (version : Nat) (r : SpdmRequest), s.doeUp = true → ∃ t, exec (.spdmRequest version r) s = .next t
    ∧ (r ≠ .getVersion → version ≠ 0x12 → version ≠ 0x13 → t = s.emit (.doe .versionMismatch))
    ∧ (r = .getVersion → t = s.emit (.doe (.spdm .getVersion [])))
    ∧ ((version = 0x12 ∨ version = 0x13) →
        (SpdmNeeds r = true → s.sealed.entropyFailed = true → t = s.emit (.doe .unspecified))
        ∧ (∀ i, r = .getMeasurements i false → 1 ≤ i → i ≤ 6 → t = s.emit (.doe (.spdm r (s.measurement i))))
        ∧ (∀ i, r = .getMeasurements i false → 6 < i → i ≠ 255 → t = s.emit (.doe .invalid))
        ∧ (∀ c, r = .other c → t = s.emit (.doe .unsupported))
        ∧ (r = .challenge 0 → s.sealed.entropyFailed = false →
            ∃ b, t.out = .doe (.spdm r (s.flash.identity ++ [b])) :: s.out ∧ Only [.out, .freeCtr] s t)
        ∧ (r = .keyExchange 0 → s.sealed.entropyFailed = false →
            t.host = { s.host with spdmHandshake := true } ∧ Only [.host, .out, .freeCtr] s t)
        ∧ (r = .finish true → s.host.spdmHandshake = true →
            t.host = { s.host with spdmHandshake := false, spdmSession := true } ∧ Only [.host, .out] s t)
        ∧ (r = .finish false → t.host = { s.host with spdmHandshake := false } ∧ t.out = .doe .invalid :: s.out)
        ∧ (r = .endSession → s.host.spdmSession = true →
            t.host = { s.host with spdmSession := false } ∧ Only [.host, .out] s t)
        ∧ (r = .endSession ∨ r = .heartbeat ∨ r = .keyUpdate → s.host.spdmSession = false → t = s.emit (.doe .invalid))
        ∧ (∀ i x, r = .ideKeySetGo i → s.host.spdmSession = true → s.host.ide.get? i = some x → x.keyed = true →
            t.host.ide.get? i = some (if x.state = .idle then { x with state := .secure } else x))
        ∧ (∀ i x, r = .ideKeySetStop i → s.host.spdmSession = true → s.host.ide.get? i = some x →
            t.host.ide.get? i = some { x with state := if x.state = .secure then .idle else x.state, keys := {} })))
  ∧ (∀ (s : State) (d : Nat) (testsOk : Bool), d % 8 ≠ 0 → 5 ≤ s.boot.step → ∃ t, exec (.glitchDetect d testsOk) s = .next t
    ∧ t.sealed.slots = {} ∧ t.sealed.unlocked = none ∧ t.sealed.nonce = none ∧ t.sealed.seed = s.sealed.seed
    ∧ t.sealed.reservedKey = s.sealed.seed.map deriveReserved ∧ t.sealed.entropyFailed = !testsOk
    ∧ (∀ i x, s.host.ide.get? i = some x → t.host.ide.get? i = some { x with state := .insecure, keys := {} })
    ∧ t.host.spdmSession = false
    ∧ (∀ p, (t.lport p).keys = (s.lport p).keys.map (fun _ => {}) ∧ (t.lport p).ephemeral = none)
    ∧ (∀ i p, s.polder? i = some p → t.polder? i = some (match p.conv with
        | some c => if c.rekey then { p with conv := none } else p
        | none => p))
    ∧ (s.canReport = false → t.sealed.resets = s.sealed.resets + 1 ∧ t.ev = s.ev)
    ∧ (s.canReport = true → t.sealed.resets = 0)
    ∧ Only [.sealed, .host, .link, .mem, .running, .ev] s t)
  ∧ ∀ (s : State) (passes : Bool), 7 ≤ s.boot.step → ∃ t, exec (.entropyHealthFail passes) s = .next t
    ∧ (passes = true → t = s) ∧ (passes = false → t = { s with sealed := { s.sealed with entropyFailed := true } })

/-- Ends in live service. A channel that drains invalidates its lowest piece, copies it and places it anew (R952-R955); a
unit whose end condition of Table 22-2 is met is OUT_OF_SERVICE and answers its command (R945, R947); a test ends with the
verdict of Table 23-3, held for its units, which are OUT_OF_SERVICE again (R975-R977, R981). -/
def Obligations.ServiceEndsTakeEffect : Prop :=
  (∀ (s : State) (n v m j i : Nat) (p : Polder), n < 140 → s.unitState (chanUnit n) = .draining →
    s.svc.moving.get? n = some v → s.moveTarget n v = some m →
    s.mem.polders.find? (fun _ p => p.place.any fun _ w => w == v) = some (i, p) → MovesPieces s n m →
    ∃ t, exec (.stripeMove n []) s = .next t
    ∧ ((∃ x ∈ s.xlat.invals, x.cause = .move v 1) → t = s)
    ∧ ((∀ x ∈ s.xlat.invals, x.cause ≠ .move v 1) → s.freePiece m = some j →
        (∃ q, t.polder? i = some q ∧ q.place = p.place.map (fun _ w => if w = v then m * 0x1000 + j else w)
          ∧ q.size = p.size ∧ q.tier = p.tier)
        ∧ t.svc.moving.get? n = none ∧ bitOf (t.chan m).used j = true
        ∧ ∀ x ∈ [Part.boot, .flash, .clk, .leases, .pumps, .prog, .inf, .gath, .d2d, .power], x.kept s t))
  ∧ (∀ (s : State) (n v m i : Nat) (p : Polder), n < 140 → s.unitState (chanUnit n) = .draining →
    s.svc.moving.get? n = none → s.nextPiece n = some v → s.moveTarget n v = some m →
    s.mem.polders.find? (fun _ p => p.place.any fun _ w => w == v) = some (i, p) → MovesPieces s n m →
    (List.range 48).filter s.holdsEntries ≠ [] →
    ∃ t, exec (.stripeMove n []) s = .next t
    ∧ t.svc.moving.get? n = some v ∧ t.polder? i = s.polder? i
    ∧ Invalidates (.piece (pieceDpa v) (pieceBytes n)) (.move v 1) s t ∧ Only [.svc, .xlat] s t)
  ∧ (∀ (s : State) (u : Nat), s.unitState u = .draining → ownStates (unitClass u) = true → s.drainRuns u = true → s.canReport = true →
    ∃ t, exec (.drainEnd u) s = .next t
    ∧ (s.drained u = true → t.unitState u = .outOfService
        ∧ (∀ r ∈ t.kym.running, r.opcode = 0x1902 → r.ref = u → r.outcome.isSome = true)
        ∧ (∀ c, unitClass u = 0x08 → c < 16 → t.isHostChan (16 * unitIndex u + c) = false)
        ∧ (unitClass u ≠ 0x08 → Only [.svc, .ev, .running] s t))
    ∧ (s.drained u = false → t = s))
  ∧ ∀ (s : State) (u test start : Nat) (o : TestOutcome), ownStates (unitClass u) = true → s.testEnds u = true →
    s.svc.testing.get? u = some (test, start) → ∃ t r, exec (.testComplete u o) s = .next t
    ∧ (∀ x ∈ (if test = 0 then testUnits 0 u else [u]), t.svc.results.get? x = some r)
    ∧ r.test = min test 2 ∧ r.stamp = start
    ∧ (∀ e, test = 0 → e = o.expected.getD (2 ^ 64 - 1) → r.signature = o.misr ∧ r.expected = e
        ∧ r.verdict = (if o.expected = some o.misr then 0 else 1)
        ∧ r.failCount = ((List.range 64).filter fun i => bitOf o.misr i != bitOf e i).length)
    ∧ (test = 1 → r.verdict = (if o.unrepaired = 0 then 0 else 1) ∧ r.failCount = o.failing
        ∧ r.signature = o.repaired % 65536 + 65536 * (o.spares % 65536) ∧ r.expected = 0
        ∧ t.svc.repaired.get 0 u = s.svc.repaired.get 0 u + o.repaired)
    ∧ (test = 2 → r.verdict = (if o.ports = [] then 0 else 1) ∧ r.failCount = o.failing
        ∧ (∀ k, k < 64 → (t.port (64 * unitIndex u + k)).dead = o.ports.any fun x => x.1 % 64 == k))
    ∧ t.svc.testing.get? u = none ∧ (∀ x ∈ testUnits test u, t.unitState x = .outOfService)
    ∧ (∀ r ∈ t.kym.running, r.opcode = 0x1A01 → r.ref = u → r.outcome.isSome = true)
    ∧ Only [.svc, .ev, .running, .mem, .d2d] s t

/-- Instructions of a sequencer that end at issue with a register result or a jump (Table 15-2): the pc moves on, s0 stays
zero, and nothing else changes (R625, R666, R668, R672, R699, R706). A signal counter is read without change, and DBG.MARK
is a NOP outside debug mode (R700). -/
def Obligations.SequencerResultsTakeEffect : Prop :=
  (∀ (s : State) (q : Nat), Issues s q .nop → ∃ t, exec (.opNop q) s = .next t ∧ SetsReg q 0 0 s t)
  ∧ (∀ (s : State) (q a imm : Nat), Issues s q (.jal a imm) → ∃ t, exec (.opJal q) s = .next t
    ∧ SetsRegAt q a (((((s.sq q).pc : Nat) : Int) + signedOf 32 imm) % 8192).toNat (BitVec.ofNat 64 ((s.sq q).pc + 1)) s t)
  ∧ (∀ (s : State) (q a b imm : Nat), Issues s q (.jalr a b imm) → ∃ t v, Reads s q v ∧ exec (.opJalr q) s = .next t
    ∧ SetsRegAt q a ((((v b).toNat : Int) + signedOf 32 imm) % 8192).toNat (BitVec.ofNat 64 ((s.sq q).pc + 1)) s t)
  ∧ (∀ (s : State) (q b c cond imm : Nat), Issues s q (.br b c cond imm) → ∃ t v, Reads s q v ∧ exec (.opBr q) s = .next t
    ∧ SetsRegAt q 0 (if condHolds cond (v b) (v c) then ((((s.sq q).pc : Nat) : Int) + signedOf 32 imm) % 8192 |>.toNat
        else after s q) 0 s t)
  ∧ (∀ (s : State) (q b cond imm off : Nat), Issues s q (.bri b cond imm off) →
    ∃ t v, Reads s q v ∧ exec (.opBri q) s = .next t
    ∧ SetsRegAt q 0 (if condHolds cond (v b) (sext 16 imm) then
          ((((s.sq q).pc : Nat) : Int) + signedOf 16 off) % 8192 |>.toNat
        else after s q) 0 s t)
  ∧ (∀ (s : State) (q a b c d : Nat), Issues s q (.sel a b c d) → ∃ t v, Reads s q v ∧ exec (.opSel q) s = .next t
    ∧ SetsReg q a (if v d ≠ 0 then v b else v c) s t)
  ∧ (∀ (s : State) (q a b c fn : Nat), Issues s q (.alu a b c fn) → ∃ t v, Reads s q v ∧ exec (.opAlu q) s = .next t
    ∧ SetsReg q a (aluFn fn (v b) (v c)) s t)
  ∧ (∀ (s : State) (q a b fn imm : Nat), Issues s q (.alui a b fn imm) →
    ∃ t v, Reads s q v ∧ exec (.opAlui q) s = .next t ∧ SetsReg q a (aluFn fn (v b) (sext 32 imm)) s t)
  ∧ (∀ (s : State) (q a imm : Nat), Issues s q (.li a imm) → ∃ t, exec (.opLi q) s = .next t
    ∧ SetsReg q a (sext 32 imm) s t)
  ∧ (∀ (s : State) (q a imm : Nat), Issues s q (.lih a imm) → ∃ t v, Reads s q v ∧ exec (.opLih q) s = .next t
    ∧ SetsReg q a (BitVec.ofNat 64 (imm * 2 ^ 32 + (v a).toNat % 2 ^ 32)) s t)
  ∧ (∀ (s : State) (q a j : Nat), Issues s q (.sigRead a j) → ∃ t, exec (.opSigRead q) s = .next t
    ∧ SetsReg q a (zext 16 ((s.sq q).counters.get 0 j)) s t)
  ∧ (∀ (s : State) (q a : Nat), Issues s q (.slotGet a) → ∃ t, exec (.opSlotGet q) s = .next t
    ∧ SetsReg q a (BitVec.ofNat 64 (s.sq q).slots) s t)
  ∧ (∀ (s : State) (q a : Nat), Issues s q (.timeGet a) → ∃ t, exec (.opTimeGet q) s = .next t
    ∧ SetsReg q a (BitVec.ofNat 64 (s.follower q)) s t)
  ∧ (∀ (s : State) (q a id : Nat), Issues s q (.csrRd a id) → ∃ t, exec (.opCsrRd q) s = .next t
    ∧ SetsReg q a (BitVec.ofNat 64 (([(s.sq q).held, (s.sq q).inUse, (s.sq q).late, (s.sq q).ops.length,
        (s.sq q).slotLen][id]?).getD 0)) s t)
  ∧ (∀ (s : State) (q b imm : Nat), Issues s q (.slotLen b imm) → Unhindered s q →
    ∃ t v, Reads s q v ∧ exec (.opSlotLen q) s = .next t
    ∧ SeqBecomes q { s.sq q with pc := after s q, nextLen := max 16 (min (2 ^ 24) (((v b).toNat + imm) % 2 ^ 64)) } s t)
  ∧ (∀ (s : State) (q b imm : Nat), Issues s q (.dbgMark b imm) → (s.sq q).debug = false →
    ∃ t, exec (.opDbgMark q) s = .next t ∧ SetsReg q 0 0 s t)
  ∧ (∀ (s : State) (q b imm : Nat), Issues s q (.dbgMark b imm) → (s.sq q).debug = true → (s.sq q).ops = [] →
    clearLow ((s.sq q).reg b) 4 ≤ 0xFFFF →
    ∃ t, exec (.opDbgMark q) s = .next t
    ∧ SeqBecomes q { (s.sq q).write (clearLow ((s.sq q).reg b) 4) (toLE 8 (s.follower q) ++ toLE 8 ((s.sq q).pc + 65536 * imm))
        with pc := after s q } s t)
  ∧ (∀ (s : State) (q : Nat), Issues s q .dbgStop → ∃ t, exec (.opDbgStop q) s = .next t
    ∧ SeqBecomes q (if (s.sq q).debug then { s.sq q with state := .stopped, held := (s.sq q).inUse }
        else { s.sq q with pc := after s q }) s t)
  ∧ ∀ (s : State) (q : Nat), s.mayIssue q = true → decodeSeq (s.wordAt q) = none →
    ∃ t, exec (.invalidInstructionWord q) s = .next t ∧ SeqTraps q 1 0 0 s t

/-- Blocking instructions: END waits for outstanding operations, then the sequencer is idle (R646); a FENCE waits for the
earlier operations of its classes (R693); TOK.ACQ beyond the envelope traps with cause 0x05, and beyond the pool waits in
the power manager's queue (R641-R643), and does not issue while the power manager's clock stands (R44); SIG.WAIT of 0 does nothing, of a counter that suffices subtracts, else waits (R638,
R697); SLOT.WAIT of a boundary passed counts a late slot (R636); LD and LD.PAIR wait for their data, or trap with cause
0x03 where the program does not own the address (R675, R678). A token amount is a 64-bit sum (R694). -/
def Obligations.BlockingInstructionsTakeEffect : Prop :=
  (∀ (s : State) (q : Nat), Issues s q .fin → (s.sq q).ops ≠ [] → ∃ t, exec (.opEnd q) s = .next t
    ∧ SeqBecomes q { s.sq q with wait := some .finish } s t)
  ∧ (∀ (s : State) (q : Nat), Issues s q .fin → (s.sq q).ops = [] →
    ((s.bindingOf q).seqs.all fun r => r == q || (s.sq r).ended) = false → ∃ t, exec (.opEnd q) s = .next t
    ∧ SeqBecomes q { s.sq q with state := .idle, held := (s.sq q).inUse, ended := true } s t)
  ∧ (∀ (s : State) (q mask : Nat), Issues s q (.fence mask) → ∃ t, exec (.opFence q) s = .next t
    ∧ ((∀ o ∈ (s.sq q).ops, bitOf mask o.cls = false) → SeqBecomes q { s.sq q with pc := after s q } s t)
    ∧ ((∃ o ∈ (s.sq q).ops, bitOf mask o.cls = true) →
        SeqBecomes q { s.sq q with
          wait := some (.fence (((s.sq q).ops.filter fun o => bitOf mask o.cls).map (·.id))) } s t))
  ∧ (∀ (s : State) (q b imm : Nat), Issues s q (.tokAcq b imm) →
    Bank.sorted s.prog.seqs.cells = true → ∃ t v n, Reads s q v ∧ n = ((v b).toNat + imm) % 2 ^ 64
    ∧ exec (.opTokAcq q) s = .next t
    ∧ (n = 0 → SeqBecomes q { s.sq q with pc := after s q } s t)
    ∧ (n ≠ 0 → s.islandHalted islPmgr = true → t = s)
    ∧ ∀ env, env = (match s.inf.caddies.get? (s.slotOf q) with | some c => c.envelope | none => 0) →
      s.islandHalted islPmgr = false →
      (n ≠ 0 → s.heldBy (s.sq q).program + n > env → SeqTraps q 5 0 0 s t)
      ∧ (n ≠ 0 → s.heldBy (s.sq q).program + n ≤ env → s.heldTokens + n ≤ s.pool →
          SeqBecomes q { s.sq q with pc := after s q, held := (s.sq q).held + n } s t)
      ∧ (n ≠ 0 → s.heldBy (s.sq q).program + n ≤ env → s.heldTokens + n > s.pool →
          settled (t.sq q) = settled { s.sq q with wait := some (.token n), waitFrom := s.now }
          ∧ t.prog.queue = s.prog.queue ++ [⟨q, n⟩] ∧ t.prog.tokenWaits = s.prog.tokenWaits + 1
          ∧ ((s.sq q).program ∈ s.prog.waitReported → t.ev = s.ev)
          ∧ (∀ p, p ≠ q → t.sq p = s.sq p) ∧ Only [.prog, .ev, .freeCtr] s t))
  ∧ (∀ (s : State) (q j v : Nat), Issues s q (.sigWait j v) → ∃ t, exec (.opSigWait q) s = .next t
    ∧ (v = 0 → SeqBecomes q { s.sq q with pc := after s q } s t)
    ∧ (0 < v → v ≤ (s.sq q).counters.get 0 j →
        SeqBecomes q { s.sq q with pc := after s q, counters := (s.sq q).counters.set j ((s.sq q).counters.get 0 j - v) } s t)
    ∧ ((s.sq q).counters.get 0 j < v → SeqBecomes q { s.sq q with wait := some (.signal j v) } s t))
  ∧ (∀ (s : State) (q b imm : Nat), Issues s q (.slotWait b imm) → ∃ t v k, Reads s q v
    ∧ k = ((v b).toNat + imm) % 2 ^ 64 ∧ exec (.opSlotWait q) s = .next t
    ∧ SeqBecomes q (if k ≤ (s.sq q).slots then { s.sq q with pc := after s q, late := (s.sq q).late + 1 }
        else { s.sq q with wait := some (.slot k) }) s t)
  ∧ (∀ (s : State) (q a b size kind imm : Nat) (signed : Bool), Issues s q (.ld a b size signed kind imm) →
    Unhindered s q → ∃ t v, Reads s q v ∧ exec (.opLd q) s = .next t
    ∧ (s.seqPlace q none kind (ea v b imm size) = .outside → SeqTraps q 3 (ea v b imm size) 0 s t)
    ∧ (s.seqPlace q none kind (ea v b imm size) ≠ .outside →
        SeqBecomes q { s.sq q with wait := some (.load kind (ea v b imm size) size signed false a) } s t))
  ∧ ∀ (s : State) (q a b kind imm : Nat), Issues s q (.ldPair a b kind imm) → Unhindered s q →
    ∃ t v, Reads s q v ∧ exec (.opLdPair q) s = .next t
    ∧ (s.seqPlace q none kind (ea v b imm 4) = .outside → SeqTraps q 3 (ea v b imm 4) 0 s t)
    ∧ (s.seqPlace q none kind (ea v b imm 4) ≠ .outside →
        SeqBecomes q { s.sq q with wait := some (.load kind (ea v b imm 4) 4 false true a) } s t)

/-- Instructions that store, send or issue. A scratch address beyond 64 KiB or an address the program does not own traps
with cause 0x03, an uncorrectable scratch word with 0x02, tokens that are not there with 0x06, a signal to nobody with 0x07
(R671, R673, R680, R695, R697). A store is posted and a 33rd waits (R677, Table 15-7); an issued operation keeps its counter
and record address (R681); a reducer operation waits behind an ORDERED one (R687); GRANT takes two tokens for each new
grant (R688); the debug detector holds an instruction that reads what an outstanding operation writes (R655). -/
def Obligations.IssuingInstructionsTakeEffect : Prop :=
  (∀ (s : State) (q a b size imm : Nat) (signed : Bool), Issues s q (.lds a b size signed imm) → Unhindered s q →
    ∃ t v, Reads s q v ∧ exec (.opLds q []) s = .next t
    ∧ (0xFFFF < ea v b imm size → SeqTraps q 3 (ea v b imm size) 0 s t)
    ∧ (ea v b imm size ≤ 0xFFFF → (s.sq q).badIn (ea v b imm size) (2 ^ size) = true →
        SeqTraps q 2 (ea v b imm size) 0 s t)
    ∧ (ea v b imm size ≤ 0xFFFF → (s.sq q).badIn (ea v b imm size) (2 ^ size) = false →
        Quiet s q (ea v b imm size) (2 ^ size) →
        SetsReg q a (loadValue size signed ((s.sq q).read (ea v b imm size) (2 ^ size))) s t))
  ∧ (∀ (s : State) (q a b size imm : Nat) (signed : Bool) (o : SeqOp) (w : Span), Issues s q (.lds a b size signed imm) →
    (s.sq q).debug = true → o ∈ (s.sq q).ops → w ∈ o.writes → w.meets ⟨4, ea (s.sq q).reg b imm size, 2 ^ size⟩ = true →
    ∃ t, exec (.opLds q []) s = .next t
    ∧ (t.sq q).hold = some (s.sq q).pc ∧ (t.sq q).pc = (s.sq q).pc ∧ (t.sq q).regs = (s.sq q).regs
    ∧ (t.sq q).hazards = (s.sq q).hazards + (if (s.sq q).hold = some (s.sq q).pc then 0 else 1)
    ∧ (∀ p, p ≠ q → t.sq p = s.sq p) ∧ Only [.prog, .ev] s t)
  ∧ (∀ (s : State) (q b c size imm : Nat), Issues s q (.sts b c size imm) → Unhindered s q →
    ∃ t v, Reads s q v ∧ exec (.opSts q []) s = .next t
    ∧ (0xFFFF < ea v b imm size → SeqTraps q 3 (ea v b imm size) 0 s t)
    ∧ (ea v b imm size ≤ 0xFFFF → size < 3 → (s.sq q).badIn (ea v b imm size) (2 ^ size) = true →
        SeqTraps q 2 (ea v b imm size) 0 s t)
    ∧ (ea v b imm size ≤ 0xFFFF → (3 ≤ size ∨ (s.sq q).badIn (ea v b imm size) (2 ^ size) = false) →
        SeqBecomes q { (s.sq q).write (ea v b imm size) (toLE (2 ^ size) (v c).toNat) with pc := after s q } s t))
  ∧ (∀ (s : State) (q b c size kind imm : Nat), Issues s q (.st b c size kind imm) → Unhindered s q →
    ∃ t v, Reads s q v ∧ exec (.opSt q) s = .next t
    ∧ (s.seqPlace q none kind (ea v b imm size) = .outside → SeqTraps q 3 (ea v b imm size) 0 s t)
    ∧ (s.seqPlace q none kind (ea v b imm size) ≠ .outside → ((s.sq q).ops.filter fun o => o.cls == 5).length < 32 →
        IssuesOp q 5 none 0 0 (.store kind (ea v b imm size) (toLE (2 ^ size) (v c).toNat)) s t
        ∧ Only [.prog, .freeCtr] s t)
    ∧ (s.seqPlace q none kind (ea v b imm size) ≠ .outside → 32 ≤ ((s.sq q).ops.filter fun o => o.cls == 5).length →
        t = s))
  ∧ (∀ (s : State) (q b c kind imm : Nat), Issues s q (.stPair b c kind imm) → Unhindered s q →
    ∃ t v, Reads s q v ∧ exec (.opStPair q) s = .next t
    ∧ (s.seqPlace q none kind (ea v b imm 4) = .outside → SeqTraps q 3 (ea v b imm 4) 0 s t)
    ∧ (s.seqPlace q none kind (ea v b imm 4) ≠ .outside → ((s.sq q).ops.filter fun o => o.cls == 5).length < 32 →
        IssuesOp q 5 none 0 0 (.store kind (ea v b imm 4) (toLE 8 (v c).toNat ++ toLE 8 (v (c + 1)).toNat)) s t
        ∧ Only [.prog, .freeCtr] s t))
  ∧ (∀ (s : State) (q b kind imm : Nat), Issues s q (.pref b kind imm) → ∃ t v, Reads s q v ∧ exec (.opPref q) s = .next t
    ∧ (s.seqPlace q none kind (ea v b imm 0) = .outside → SeqTraps q 3 (ea v b imm 0) 0 s t)
    ∧ (∀ a, s.seqPlace q none kind (ea v b imm 0) = .scratch a → SeqBecomes q { s.sq q with pc := after s q } s t)
    ∧ (∀ p o, s.seqPlace q none kind (ea v b imm 0) = .polder p o → s.placeWaits (.polder p (alignDown o 128)) 128 = true → t = s)
    ∧ (∀ p o, s.seqPlace q none kind (ea v b imm 0) = .polder p o → s.placeWaits (.polder p (alignDown o 128)) 128 = false →
        settled (t.sq q) = settled { s.sq q with pc := after s q } ∧ (∀ p, p ≠ q → t.sq p = s.sq p)
        ∧ ∀ p ∈ [Part.boot, .flash, .clk, .leases, .xlat, .pumps, .inf, .gath, .svc, .power], p.kept s t))
  ∧ (∀ (s : State) (q a b slot k : Nat), Issues s q (.pumpIss a b slot) → Unhindered s q →
    (s.bindingOf q).chans[slot]? = some k → s.isHostChan k = false →
    ∃ t v, Reads s q v ∧ exec (.opPumpIss q []) s = .next t
    ∧ (0xFFFF < clearLow (v b) 6 → SeqTraps q 3 (clearLow (v b) 6) 0 s t)
    ∧ (clearLow (v b) 6 ≤ 0xFFFF → (s.sq q).badIn (clearLow (v b) 6) 64 = true → SeqTraps q 2 (clearLow (v b) 6) 0 s t)
    ∧ (clearLow (v b) 6 ≤ 0xFFFF → (s.sq q).badIn (clearLow (v b) 6) 64 = false → Quiet s q (clearLow (v b) 6) 64 →
        ((s.pchan k).descs.filter fun d => !d.completed).length < 16 →
        IssuesOp q 0 (some a) (clearLow (v b) 6 + 56) 0 .unit s t
        ∧ (∃ d, (t.pchan k).descs = (s.pchan k).descs ++ [d] ∧ d.raw = (s.sq q).read (clearLow (v b) 6) 64
            ∧ d.tag = some (nextTag s q) ∧ d.index = (s.pchan k).next)
        ∧ (t.pchan k).next = ((s.pchan k).next + 1) % 65536 ∧ (∀ j, j ≠ k → t.pchan j = s.pchan j)
        ∧ Only [.prog, .freeCtr, .pumps] s t))
  ∧ (∀ (s : State) (q a b slot : Nat), Issues s q (.pumpIss a b slot) → Unhindered s q →
    (s.bindingOf q).chans[slot]? = none → ∃ t, exec (.opPumpIss q []) s = .next t ∧ SeqTraps q 3 0 0 s t)
  ∧ (∀ (s : State) (q a b c e : Nat), Issues s q (.gathIss a b c e) → Unhindered s q →
    ∃ t v raw, Reads s q v ∧ raw = (s.sq q).read (clearLow (v b) 6) 64 ∧ exec (.opGathIss q []) s = .next t
    ∧ (clearLow (v b) 6 ≤ 0xFFFF → (s.sq q).badIn (clearLow (v b) 6) 64 = false → Quiet s q (clearLow (v b) 6) 64 →
        clearLow (v c) 4 ≤ 0xFFFF → byteAt raw 1 ≤ 63 → s.ownsLane q (64 * e + byteAt raw 1) = true →
        ((s.sq q).spare < 2 → SeqTraps q 6 0 0 s t)
        ∧ (2 ≤ (s.sq q).spare → (s.lane (64 * e + byteAt raw 1)).jobs.length < 5 →
            IssuesOp q 1 (some a) (clearLow (v c) 4) 2 .unit s t
            ∧ (t.lane (64 * e + byteAt raw 1)).jobs = (s.lane (64 * e + byteAt raw 1)).jobs
                ++ [{ raw := raw, tag := nextTag s q, caddy := s.slotOf q,
                      status := if s.inService (gatherUnit e) then 0 else 0x22 }]
            ∧ (∀ l, l ≠ 64 * e + byteAt raw 1 → t.lane l = s.lane l) ∧ Only [.prog, .freeCtr, .gath] s t))
    ∧ (clearLow (v b) 6 ≤ 0xFFFF → (s.sq q).badIn (clearLow (v b) 6) 64 = false → Quiet s q (clearLow (v b) 6) 64 →
        clearLow (v c) 4 ≤ 0xFFFF → (63 < byteAt raw 1 ∨ s.ownsLane q (64 * e + byteAt raw 1) = false) →
        SeqTraps q 3 0 (gatherUnit e) s t))
  ∧ (∀ (s : State) (q a b u : Nat), Issues s q (.infIss a b) → Unhindered s q → s.infOpen ≠ [] → s.infChoice = some u →
    ∃ t v raw, Reads s q v ∧ raw = (s.sq q).read (clearLow (v b) 6) 64 ∧ exec (.opInfIss q []) s = .next t
    ∧ (clearLow (v b) 6 ≤ 0xFFFF → (s.sq q).badIn (clearLow (v b) 6) 64 = false → Quiet s q (clearLow (v b) 6) 64 →
        ((s.sq q).spare < 40 → SeqTraps q 6 0 0 s t)
        ∧ (40 ≤ (s.sq q).spare →
            IssuesOp q 2 (some a) (clearLow (v b) 6 + 56) 40 .unit s t
            ∧ (∃ j, (t.infUnit u).jobs = (s.infUnit u).jobs ++ [j] ∧ j.raw = raw ∧ j.owner = .seq (nextTag s q)
                ∧ j.caddy = s.slotOf q ∧ j.started = false)
            ∧ (∀ w, w ≠ u → t.infUnit w = s.infUnit w)
            ∧ ((parseInf raw).needs = [] → Only [.prog, .freeCtr, .inf] s t))))
  ∧ (∀ (s : State) (q b c type kind n ast : Nat) (ordered : Bool), Issues s q (.red b c type kind ordered n ast) →
    Unhindered s q → ∃ t v, Reads s q v ∧ exec (.opRed q []) s = .next t
    ∧ (∀ cause a, s.redTrap q kind (v b).toNat ast type n (clearLow (v c) 3) = some (cause, a) → SeqTraps q cause a 0 s t)
    ∧ (s.redTrap q kind (v b).toNat ast type n (clearLow (v c) 3) = none → kind ≠ 0 → ordered = true →
        s.orderedOut q = true → t = s)
    ∧ (s.redTrap q kind (v b).toNat ast type n (clearLow (v c) 3) = none → kind ≠ 0 →
        (ordered = false ∨ s.orderedOut q = false) → (s.redsOut q ≠ [] ∨ 4 ≤ (s.sq q).spare) → (s.redsOut q).length < 64 →
        Quiet s q (clearLow (v c) 3) (operandBytes type n) →
        (∃ o : SeqOp, o.id = (s.sq q).nextOp ∧ o.cls = 3
          ∧ o.work = .red kind (v b).toNat ast type n ((s.sq q).read (clearLow (v c) 3) (operandBytes type n)) ordered none none
          ∧ (t.sq q).ops = (s.sq q).ops ++ [o])
        ∧ (t.sq q).inUse = (s.sq q).inUse + (if s.redsOut q = [] then 4 else 0) ∧ (t.sq q).pc = after s q
        ∧ (∀ j, (t.sq q).reg j = (s.sq q).reg j) ∧ SeqOnly q s t))
  ∧ (∀ (s : State) (q b c type n ast id : Nat) (ordered : Bool) (j : XJob), Issues s q (.red b c type 0 ordered n ast) →
    Unhindered s q → (s.sq q).redJob = some id → s.xlat.jobs.get? id = some j → j.remark = false → j.status = .ready →
    ∃ t v, Reads s q v ∧ exec (.opRed q []) s = .next t
    ∧ (s.redTrap q 0 (v b).toNat ast type n (clearLow (v c) 3) = none → (ordered = false ∨ s.orderedOut q = false) →
        (s.redsOut q ≠ [] ∨ 4 ≤ (s.sq q).spare) → (s.redsOut q).length < 64 →
        Quiet s q (clearLow (v c) 3) (operandBytes type n) →
        (∀ w off, s.seqPlace q (some id) 0 (v b).toNat ≠ .window w off) →
        (∃ o : SeqOp, o.id = (s.sq q).nextOp ∧ o.cls = 3
          ∧ o.work = .red 0 (v b).toNat ast type n ((s.sq q).read (clearLow (v c) 3) (operandBytes type n)) ordered
              (some id) none
          ∧ (t.sq q).ops = (s.sq q).ops ++ [o])
        ∧ (t.sq q).redJob = none ∧ (t.sq q).pc = after s q ∧ SeqOnly q s t))
  ∧ (∀ (s : State) (q b : Nat), Issues s q (.grant b) → ∃ t v asked new, Reads s q v ∧ exec (.opGrant q) s = .next t
    ∧ asked = (List.range 64).filter (fun j => bitOf (v b).toNat j)
    ∧ new = (asked.filterMap fun j => (s.bindingOf q).clusters[j]?).filter (fun c => (s.port c).grant.isNone)
    ∧ ((∃ j ∈ asked, (s.bindingOf q).clusters.length ≤ j) → SeqTraps q 3 0 0 s t)
    ∧ ((∀ j ∈ asked, j < (s.bindingOf q).clusters.length) → (s.sq q).spare < 2 * new.length → SeqTraps q 6 0 0 s t)
    ∧ ((∀ j ∈ asked, j < (s.bindingOf q).clusters.length) → 2 * new.length ≤ (s.sq q).spare →
        settled (t.sq q) = settled { s.sq q with pc := after s q, inUse := (s.sq q).inUse + 2 * new.length }
        ∧ (∀ c ∈ new, t.port c = { s.port c with grant := some q }) ∧ (∀ c, c ∉ new → t.port c = s.port c)
        ∧ (∀ p, p ≠ q → t.sq p = s.sq p) ∧ Only [.prog, .freeCtr, .d2d, .out] s t))
  ∧ (∀ (s : State) (q cluster unit dir kind index engine : Nat),
    Issues s q (.strmBind cluster unit dir kind index engine) → Unhindered s q →
    ∃ t, exec (.opStrmBind q) s = .next t
    ∧ (((s.bindingOf q).clusters[cluster]? = none ∨ s.bindTarget q kind index engine = none) → SeqTraps q 3 0 0 s t)
    ∧ (∀ c e, (s.bindingOf q).clusters[cluster]? = some c → s.bindTarget q kind index engine = some e →
        t.endpointOf c unit dir = some e
        ∧ (s.boundTo e dir = none → s.endpointOf c unit dir = none →
            settled (t.sq q) = settled { s.sq q with pc := after s q } ∧ (∀ d, d ≠ c → t.port d = s.port d)
            ∧ (∀ p, p ≠ q → t.sq p = s.sq p) ∧ Only [.prog, .freeCtr, .d2d] s t)))
  ∧ (∀ (s : State) (q a b cluster unit n : Nat) (paced : Bool), Issues s q (.strmSend a b paced cluster unit n) →
    Unhindered s q → ∃ t v, Reads s q v ∧ exec (.opStrmSend q []) s = .next t
    ∧ (s.ownStream q cluster unit 0 = none → SeqTraps q 3 0 0 s t)
    ∧ (∀ c, s.ownStream q cluster unit 0 = some c → 0x10000 < clearLow (v b) 6 + 64 * n →
        SeqTraps q 3 (clearLow (v b) 6) 0 s t)
    ∧ (∀ c, s.ownStream q cluster unit 0 = some c → clearLow (v b) 6 + 64 * n ≤ 0x10000 →
        (s.sq q).badIn (clearLow (v b) 6) (64 * n) = false → Quiet s q (clearLow (v b) 6) (64 * n) →
        (paced = true → IssuesOp q 4 (some a) 0 0 (.send c unit (clearLow (v b) 6)
            ((List.range n).map fun j => (s.sq q).read (clearLow (v b) 6 + 64 * j) 64) true) s t
          ∧ Only [.prog, .freeCtr] s t)
        ∧ (paced = false → IssuesOp q 4 (some a) 0 0 (.send c unit (clearLow (v b) 6) [] false) s t
          ∧ (∀ d, d ≠ c → t.port d = s.port d) ∧ Only [.prog, .freeCtr, .d2d, .out] s t)))
  ∧ (∀ (s : State) (q a b cluster unit n : Nat), Issues s q (.strmRecv a b cluster unit n) → Unhindered s q →
    ∃ t v, Reads s q v ∧ exec (.opStrmRecv q) s = .next t
    ∧ (s.ownStream q cluster unit 1 = none → SeqTraps q 3 0 0 s t)
    ∧ (∀ c, s.ownStream q cluster unit 1 = some c → clearLow (v b) 6 + 64 * n ≤ 0x10000 → (s.port c).inbox.get [] unit = [] →
        IssuesOp q 4 (some a) 0 0 (.recv c unit (clearLow (v b) 6) n) s t ∧ Only [.prog, .freeCtr] s t))
  ∧ (∀ (s : State) (q b imm : Nat), Issues s q (.tokRel b imm) → ∃ t v n, Reads s q v ∧ n = ((v b).toNat + imm) % 2 ^ 64
    ∧ exec (.opTokRel q) s = .next t
    ∧ ((s.sq q).held - (s.sq q).inUse < n → SeqTraps q 6 0 0 s t)
    ∧ (n ≤ (s.sq q).held - (s.sq q).inUse →
        SeqBecomes q { s.sq q with pc := after s q, held := (s.sq q).held - n } s t))
  ∧ (∀ (s : State) (q b index counter : Nat), Issues s q (.sigPost b index false counter) →
    ∃ t v, Reads s q v ∧ exec (.opSigPost q) s = .next t
    ∧ ((s.bindingOf q).seqs[index]? = none → SeqTraps q 7 0 0 s t)
    ∧ (∀ d, (s.bindingOf q).seqs[index]? = some d → (v b).toNat % 65536 = 0 →
        SeqBecomes q { s.sq q with pc := after s q } s t)
    ∧ (∀ d, (s.bindingOf q).seqs[index]? = some d → (v b).toNat % 65536 ≠ 0 →
        settled (t.sq q) = settled { s.sq q with pc := after s q } ∧ (∀ p, p ≠ q → t.sq p = s.sq p)
        ∧ t.prog = { s.prog with seqs := t.prog.seqs, posts := s.prog.posts ++ [⟨q, d, counter, (v b).toNat % 65536⟩] }
        ∧ Only [.prog, .freeCtr] s t))
  ∧ ∀ (s : State) (q b index counter : Nat), Issues s q (.sigPost b index true counter) →
    ∃ t v, Reads s q v ∧ exec (.opSigPost q) s = .next t
    ∧ ((s.bindingOf q).clusters[index]? = none → SeqTraps q 7 0 0 s t)
    ∧ (∀ c, (s.bindingOf q).clusters[index]? = some c →
        settled (t.sq q) = settled { s.sq q with pc := after s q } ∧ (∀ p, p ≠ q → t.sq p = s.sq p)
        ∧ (∀ d, d ≠ c → t.port d = s.port d)
        ∧ ((v b).toNat % 65536 = 0 → t.port c = s.port c)
        ∧ Only [.prog, .freeCtr, .d2d, .out] s t)

/-- What comes to a sequencer from outside: its start time sets s1 to s6 and begins slot 0 (R632-R634), and
stops it while the device is LOST (R273, R635); a slot boundary is
counted, takes the slot length, ends a SLOT.WAIT, stops a stopping sequencer, and lets a paced send put its next block
(R635, R636, R692, R704); the oldest token request is granted whole, and holds those behind it (R642, R643); a load writes
its register and the next instruction follows, and poison traps with cause 0x04 (R678); a completion writes its record,
returns its tokens and raises its counter, and a failed one traps at the instruction that issued it (R681, R702, R703); a
post raises a counter and may end a SIG.WAIT (R638); FENCE and END end (R646, R647, R693). -/
def Obligations.SequencerEventsTakeEffect : Prop :=
  (∀ (s : State) (q : Nat) (r : StartRec), q < 64 → s.islandHalted q = false → (s.sq q).state = .armed →
    (s.sq q).start = some r → (s.sq q).startAt ≤ s.follower q → s.boot.device ≠ .lost →
    ∃ t, exec (.programStartTime q) s = .next t
    ∧ (t.sq q).state = .running ∧ (t.sq q).pc = r.pc ∧ (t.sq q).slots = 0 ∧ (t.sq q).slotLen = r.slotLen
    ∧ (t.sq q).debug = r.debug ∧ (t.sq q).wait = none ∧ (t.sq q).counters = {} ∧ (t.sq q).ops = [] ∧ (t.sq q).held = 0
    ∧ (∀ i, (t.sq q).reg i = if 1 ≤ i ∧ i ≤ 6 then
          BitVec.ofNat 64 (([r.argument, (s.sq q).rank, r.count, (s.sq q).program, r.entry, (s.sq q).startAt][i - 1]?).getD 0)
        else 0)
    ∧ SeqOnly q s t)
  ∧ (∀ (s : State) (q : Nat) (r : StartRec), q < 64 → s.islandHalted q = false → (s.sq q).state = .armed →
    (s.sq q).start = some r → (s.sq q).startAt ≤ s.follower q → s.boot.device = .lost →
    ∃ t, exec (.programStartTime q) s = .next t ∧ t.sq q = { s.sq q with state := .stopped } ∧ SeqOnly q s t)
  ∧ (∀ (s : State) (q : Nat), q < 64 → s.islandHalted q = false → (s.sq q).state = .running → (s.sq q).ops = [] →
    ∃ t, exec (.slotBoundary q) s = .next t
    ∧ ((s.sq q).stopping = true → (t.sq q).state = .stopped ∧ (t.sq q).slots = (s.sq q).slots + 1)
    ∧ ((s.sq q).stopping = false → s.boot.device ≠ .lost → (∀ k, (s.sq q).wait ≠ some (.slot k)) →
        SeqBecomes q { s.sq q with slots := (s.sq q).slots + 1, slotLen := (s.sq q).nextLen } s t)
    ∧ (∀ k, (s.sq q).stopping = false → s.boot.device ≠ .lost → (s.sq q).wait = some (.slot k) →
        SeqBecomes q { s.sq q with slots := (s.sq q).slots + 1, slotLen := (s.sq q).nextLen
                                   pc := if k ≤ (s.sq q).slots + 1 then after s q else (s.sq q).pc
                                   wait := if k ≤ (s.sq q).slots + 1 then none else some (.slot k) } s t))
  ∧ (∀ (s : State) (q c unit src : Nat) (b : Bytes) (rest : List Bytes) (o : SeqOp), q < 64 → s.islandHalted q = false →
    (s.sq q).state = .running → (s.sq q).ops = [o] → o.work = .send c unit src (b :: rest) true → o.done = none →
    (s.sq q).stopping = false → s.boot.device ≠ .lost →
    ∃ t, exec (.slotBoundary q) s = .next t ∧ (t.sq q).ops = [{ o with work := .send c unit (src + 64) rest true }]
    ∧ (t.sq q).slots = (s.sq q).slots + 1 ∧ (∀ p, p ≠ q → t.sq p = s.sq p) ∧ (∀ d, d ≠ c → t.port d = s.port d)
    ∧ Only [.prog, .freeCtr, .d2d, .out] s t)
  ∧ (∀ (s : State) (r : TokenReq) (rest : List TokenReq), s.islandHalted islPmgr = false → s.prog.queue = r :: rest →
    ∃ t, exec .tokenGrant s = .next t
    ∧ (s.pool < s.heldTokens + r.n → t = s)
    ∧ (s.heldTokens + r.n ≤ s.pool → rest = [] →
        t.sq r.seq = { s.sq r.seq with held := (s.sq r.seq).held + r.n, wait := none, pc := after s r.seq
                                       waited := (s.sq r.seq).waited + (s.now - (s.sq r.seq).waitFrom) }
        ∧ t.prog.queue = [] ∧ (∀ p, p ≠ r.seq → t.sq p = s.sq p) ∧ Only [.prog] s t))
  ∧ (∀ (s : State) (q kind addr size reg a : Nat) (signed : Bool), s.islandHalted q = false → (s.sq q).state = .running →
    (s.sq q).wait = some (.load kind addr size signed false reg) → s.seqPlace q none kind addr = .scratch a →
    s.placeWaits (.scratch a) (2 ^ size) = false → s.lineBusy q (s.sq q).nextOp (.scratch a) = false →
    ∃ t, exec (.seqLoadReturn q []) s = .next t
    ∧ ((s.scratchRead a (2 ^ size)).bad = none →
        SeqBecomes q { (s.sq q).setReg reg (loadValue size signed (s.scratchRead a (2 ^ size)).bytes) with
                       pc := after s q, wait := none } s t)
    ∧ ((s.scratchRead a (2 ^ size)).bad ≠ none → SeqTraps q 4 addr 0 s t))
  ∧ (∀ (s : State) (q kind addr reg a : Nat), s.islandHalted q = false → (s.sq q).state = .running →
    (s.sq q).wait = some (.load kind addr 4 false true reg) → s.seqPlace q none kind addr = .scratch a →
    s.placeWaits (.scratch a) 16 = false → s.lineBusy q (s.sq q).nextOp (.scratch a) = false → (s.scratchRead a 16).bad = none →
    ∃ t, exec (.seqLoadReturn q []) s = .next t
    ∧ SeqBecomes q { ((s.sq q).setReg reg (BitVec.ofNat 64 (fieldAt (s.scratchRead a 16).bytes 0 8))).setReg (reg + 1)
                        (BitVec.ofNat 64 (fieldAt (s.scratchRead a 16).bytes 8 8)) with
                     pc := after s q, wait := none } s t)
  ∧ (∀ (s : State) (q kind addr size reg i o : Nat) (signed : Bool), s.islandHalted q = false → (s.sq q).state = .running →
    (s.sq q).wait = some (.load kind addr size signed false reg) → s.seqPlace q none kind addr = .polder i o →
    s.placeWaits (.polder i o) (2 ^ size) = false → s.lineBusy q (s.sq q).nextOp (.polder i o) = false →
    (s.polderRead i o (2 ^ size) true).2.bad = none →
    ∃ t, exec (.seqLoadReturn q []) s = .next t
    ∧ settled (t.sq q) = settled { (s.sq q).setReg reg (loadValue size signed (s.polderRead i o (2 ^ size) true).2.bytes) with
        pc := after s q, wait := none }
    ∧ (∀ p, p ≠ q → t.sq p = s.sq p)
    ∧ ∀ p ∈ [Part.boot, .flash, .clk, .leases, .xlat, .pumps, .inf, .gath, .svc, .power], p.kept s t)
  ∧ (∀ (s : State) (q op j : Nat) (o : SeqOp) (d : OpDone), s.islandHalted q = false →
    (s.sq q).ops.find? (fun o => o.id == op) = some o → o.work = .unit → o.done = some d → o.counter = some j →
    d.record ≠ [] → (s.sq q).state = .running → (s.sq q).wait = none →
    ∃ t, exec (.operationCompletion q op) s = .next t
    ∧ (d.trap = none →
        SeqBecomes q { (s.sq q).write o.scratch d.record with
          ops := (s.sq q).ops.filter (fun o => o.id != op), inUse := (s.sq q).inUse - o.tokens
          counters := (s.sq q).counters.set j (min 65535 ((s.sq q).counters.get 0 j + 1)) } s t)
    ∧ (∀ x, d.trap = some x → (t.sq q).state = .trapped ∧ (t.sq q).scratch = ((s.sq q).write o.scratch d.record).scratch
        ∧ (t.sq q).counters.get 0 j = min 65535 ((s.sq q).counters.get 0 j + 1)
        ∧ t.ev = (s.raise 0x0B01 sevDegraded (seqUnit q)
            [(8, x.cause), (8, x.status), (13, o.index), (3, 0), (48, x.addr), (16, x.unit)]).ev
        ∧ (∀ p, p ≠ q → t.sq p = s.sq p) ∧ Only [.prog, .ev] s t))
  ∧ (∀ (s : State) (q op kind addr a : Nat) (data : Bytes) (o : SeqOp), s.islandHalted q = false →
    (s.sq q).ops.find? (fun o => o.id == op) = some o → o.work = .store kind addr data →
    s.seqPlace q none kind addr = .scratch a → s.placeWaits (.scratch a) data.length = false →
    s.lineBusy q o.id (.scratch a) = false →
    ∃ t, exec (.operationCompletion q op) s = .next t
    ∧ t.mem = (s.scratchWrite a data).mem ∧ t.basin = (s.scratchWrite a data).basin
    ∧ t.sq q = { s.sq q with ops := (s.sq q).ops.filter fun o => o.id != op }
    ∧ (∀ p, p ≠ q → t.sq p = s.sq p) ∧ Only [.prog, .mem, .basin] s t)
  ∧ (∀ (s : State) (q op kind addr ast type n : Nat) (data : Bytes) (ordered ok : Bool) (o : SeqOp),
    s.islandHalted q = false → (s.sq q).ops.find? (fun o => o.id == op) = some o →
    o.work = .red kind addr ast type n data ordered none (some ok) → (s.sq q).state = .running →
    ∃ t, exec (.redAckReceived q op) s = .next t
    ∧ (ok = true → SeqBecomes q { s.sq q with
        ops := (s.sq q).ops.filter (fun o => o.id != op)
        inUse := (s.sq q).inUse - (if ((s.sq q).ops.filter fun o => o.id != op).any (fun p => p.cls == 3) then 0 else 4) } s t)
    ∧ (ok = false → (t.sq q).state = .trapped ∧ (t.sq q).ops = (s.sq q).ops.filter (fun o => o.id != op)
        ∧ t.ev = (s.raise 0x0B01 sevDegraded (seqUnit q)
            [(8, 9), (8, 0), (13, o.index), (3, 0), (48, addr % 2 ^ 48), (16, 0)]).ev
        ∧ (∀ p, p ≠ q → t.sq p = s.sq p) ∧ Only [.prog, .ev] s t))
  ∧ (∀ (s : State) (src dst : Nat) (p : Post), s.islandHalted dst = false →
    s.prog.posts.find? (fun p => p.src == src && p.dst == dst) = some p →
    ∃ t, exec (.signalArrival src dst) s = .next t
    ∧ t.prog.posts = dropFirst p s.prog.posts ∧ (∀ e, e ≠ dst → t.sq e = s.sq e) ∧ Only [.prog] s t
    ∧ ((s.sq dst).wait = none → t.sq dst = (s.sq dst).bump p.counter p.value)
    ∧ (∀ v, (s.sq dst).wait = some (.signal p.counter v) →
        v ≤ min 65535 ((s.sq dst).counters.get 0 p.counter + p.value) →
        (t.sq dst).wait = none ∧ (t.sq dst).pc = after s dst
        ∧ (t.sq dst).counters.get 0 p.counter = min 65535 ((s.sq dst).counters.get 0 p.counter + p.value) - v))
  ∧ (∀ (s : State) (q : Nat) (ids : List Nat), s.islandHalted q = false → (s.sq q).wait = some (.fence ids) →
    ∃ t, exec (.fenceComplete q) s = .next t
    ∧ ((∃ o ∈ (s.sq q).ops, o.id ∈ ids) → t = s)
    ∧ ((∀ o ∈ (s.sq q).ops, o.id ∉ ids) → SeqBecomes q { s.sq q with pc := after s q, wait := none } s t))
  ∧ ∀ (s : State) (q slot : Nat) (c : Caddy) (b : Binding), s.islandHalted q = false → (s.sq q).wait = some .finish →
    (s.sq q).ops = [] → (s.sq q).caddy = some slot → s.inf.caddies.get? slot = some c → c.bound = some b →
    ∃ t, exec (.endComplete q) s = .next t
    ∧ ((∃ r ∈ b.seqs, r ≠ q ∧ (s.sq r).ended = false) →
        SeqBecomes q { s.sq q with state := .idle, wait := none, held := (s.sq q).inUse, ended := true } s t)
    ∧ ((∀ r ∈ b.seqs, r ≠ q → (s.sq r).ended = true) →
        (t.sq q).state = .idle ∧ (t.sq q).wait = none
        ∧ t.inf.caddies.get? slot = some { c with state := 3, program := 0, envelope := 0 }
        ∧ (∀ r ∈ b.seqs, (t.sq r).program = 0 ∧ (t.sq r).held = 0 ∧ (t.sq r).inUse = 0)
        ∧ Only [.prog, .inf, .d2d, .out, .ev] s t)
end

