-- ==== Sys2Proof/Laws/Aes.lean ====
section
/-! SUPPORT. The values of SubBytes are those of its definition (FIPS 197). -/

namespace Sys2Proof.Machine

theorem sub_eq_subByte : ∀ a, a < 256 → sub a = subByte a := by decide +kernel

end Sys2Proof.Machine
end

