-- ==== Sys2Proof/Laws/Bank.lean ====
section
/-! SUPPORT. Sparse banks: what a lookup finds after an update, and that updates keep the numbers rising. -/

namespace Sys2Proof.Bank

variable {α : Type}

@[simp] theorem find_put_same (l : List (Nat × α)) (i : Nat) (v : α) : find (put l i v) i = some v := by
  induction l with
  | nil => simp [put, find]
  | cons c t ih =>
    unfold put; split
    · simp [find]
    · split
      · simp [find]
      · next h => simp [find, ih, Ne.symm h]

@[simp] theorem find_put_other (l : List (Nat × α)) {i k : Nat} (v : α) (h : k ≠ i) : find (put l i v) k = find l k := by
  induction l with
  | nil => simp [put, find, Ne.symm h]
  | cons c t ih =>
    unfold put; split
    · simp [find, Ne.symm h]
    · split
      · next hk => subst hk; simp [find, Ne.symm h]
      · simp [find, ih]

@[simp] theorem get?_set_same (b : Bank α) (i : Nat) (v : α) : (b.set i v).get? i = some v := find_put_same _ _ _

@[simp] theorem get?_set_other (b : Bank α) {i k : Nat} (v : α) (h : k ≠ i) : (b.set i v).get? k = b.get? k :=
  find_put_other _ _ h

@[simp] theorem get_set_same (b : Bank α) (d : α) (i : Nat) (v : α) : (b.set i v).get d i = v := by simp [get]

@[simp] theorem get_set_other (b : Bank α) (d : α) {i k : Nat} (v : α) (h : k ≠ i) :
    (b.set i v).get d k = b.get d k := by simp [get, h]

theorem find_del_other (l : List (Nat × α)) {i k : Nat} (h : k ≠ i) : find (del l i) k = find l k := by
  induction l with
  | nil => rfl
  | cons c t ih =>
    unfold del at ih ⊢
    rw [List.filter_cons]; split
    · simp only [find, ih]
    · next hc =>
      have : c.1 = i := by simpa using hc
      simp [find, this, Ne.symm h, ih]

theorem find_del_same (l : List (Nat × α)) (i : Nat) : find (del l i) i = none := by
  induction l with
  | nil => rfl
  | cons c t ih =>
    unfold del at ih ⊢
    rw [List.filter_cons]; split
    · next hc =>
      have : c.1 ≠ i := by simpa using hc
      simp only [find, ih, if_neg this]
    · exact ih

@[simp] theorem get?_erase_same (b : Bank α) (i : Nat) : (b.erase i).get? i = none := find_del_same _ _

@[simp] theorem get_erase_same (b : Bank α) (d : α) (i : Nat) : (b.erase i).get d i = d := by simp [get]

@[simp] theorem get?_erase_other (b : Bank α) {i k : Nat} (h : k ≠ i) : (b.erase i).get? k = b.get? k :=
  find_del_other _ h

@[simp] theorem get_erase_other (b : Bank α) (d : α) {i k : Nat} (h : k ≠ i) :
    (b.erase i).get d k = b.get d k := by simp [get, h]

theorem find_map {β : Type} (l : List (Nat × α)) (f : Nat → α → β) (i : Nat) :
    find (l.map fun c => (c.1, f c.1 c.2)) i = (find l i).map (f i) := by
  induction l with
  | nil => rfl
  | cons c t ih => by_cases h : c.1 = i <;> simp [find, h, ih]

@[simp] theorem get?_map {β : Type} (b : Bank α) (f : Nat → α → β) (i : Nat) :
    (b.map f).get? i = (b.get? i).map (f i) := find_map _ _ _

/-- Every listed number is above `a`. -/
def Above (a : Nat) (l : List (Nat × α)) : Prop := ∀ c ∈ l, a < c.1

theorem sorted_iff (a : Nat) (v : α) (l : List (Nat × α)) : sorted ((a, v) :: l) = true ↔ Above a l ∧ sorted l = true := by
  induction l generalizing a v with
  | nil => simp [sorted, Above]
  | cons c t ih =>
    obtain ⟨b, w⟩ := c
    rw [sorted, Bool.and_eq_true, decide_eq_true_eq]
    constructor
    · rintro ⟨h, hs⟩
      refine ⟨?_, hs⟩
      intro c hc
      rcases List.mem_cons.1 hc with rfl | hc
      · exact h
      · exact Nat.lt_trans h (((ih b w).1 hs).1 c hc)
    · rintro ⟨h, hs⟩
      exact ⟨h (b, w) (by simp), hs⟩

theorem sorted_tail {c : Nat × α} {l : List (Nat × α)} (h : sorted (c :: l) = true) : sorted l = true :=
  ((sorted_iff c.1 c.2 l).1 h).2

theorem above_put {a i : Nat} {l : List (Nat × α)} (v : α) (h : Above a l) (hi : a < i) : Above a (put l i v) := by
  induction l with
  | nil => intro c hc; simp [put] at hc; subst hc; exact hi
  | cons x t ih =>
    have hx := h x (by simp)
    have ht : Above a t := fun c hc => h c (by simp [hc])
    unfold put; intro c hc
    split at hc
    · rcases List.mem_cons.1 hc with rfl | hc
      · exact hi
      · exact h c hc
    · split at hc
      · rcases List.mem_cons.1 hc with rfl | hc
        · exact hi
        · exact ht c hc
      · rcases List.mem_cons.1 hc with rfl | hc
        · exact hx
        · exact ih ht c hc

/-- An insertion keeps the numbers rising. -/
theorem sorted_put {l : List (Nat × α)} (i : Nat) (v : α) (h : sorted l = true) : sorted (put l i v) = true := by
  induction l with
  | nil => rfl
  | cons x t ih =>
    obtain ⟨k, w⟩ := x
    unfold put; split
    · next hk => exact (sorted_iff _ _ _).2 ⟨fun c hc => by
        rcases List.mem_cons.1 hc with rfl | hc
        · exact hk
        · exact Nat.lt_trans hk (((sorted_iff k w t).1 h).1 c hc), h⟩
    · split
      · next _ hk => subst hk; exact (sorted_iff _ _ _).2 ((sorted_iff _ _ _).1 h)
      · next h1 h2 =>
        have := (sorted_iff k w t).1 h
        exact (sorted_iff _ _ _).2 ⟨above_put v this.1 (by omega), ih this.2⟩

/-- What remains of rising numbers is rising. -/
theorem sorted_filter {l : List (Nat × α)} (p : Nat × α → Bool) (h : sorted l = true) : sorted (l.filter p) = true := by
  induction l with
  | nil => rfl
  | cons x t ih =>
    have := (sorted_iff x.1 x.2 t).1 h
    rw [List.filter_cons]; split
    · exact (sorted_iff _ _ _).2 ⟨fun c hc => this.1 c (List.mem_filter.1 hc).1, ih this.2⟩
    · exact ih this.2

/-- Two rising runs, one all above the other. -/
theorem sorted_append {l m : List (Nat × α)} (hl : sorted l = true) (hm : sorted m = true)
    (h : ∀ c ∈ l, Above c.1 m) : sorted (l ++ m) = true := by
  induction l with
  | nil => exact hm
  | cons x t ih =>
    have hx := (sorted_iff x.1 x.2 t).1 hl
    refine (sorted_iff x.1 x.2 _).2 ⟨fun c hc => ?_, ih hx.2 fun c hc => h c (by simp [hc])⟩
    rcases List.mem_append.1 hc with hc | hc
    · exact hx.1 c hc
    · exact h x (by simp) c hc

end Sys2Proof.Bank
end

