-- ==== Sys2Proof/Laws/Memory.lean ====
section
/-! SUPPORT. Memory: the canonical form of its cells, kept by every operation that changes them, and read after write. -/

namespace Sys2Proof.Machine

theorem cellsOf_ge (a : Nat) (bs : Bytes) : ∀ c ∈ cellsOf a bs, a ≤ c.1 ∧ c.1 < a + bs.length ∧ c.2 ≠ 0 := by
  induction bs generalizing a with
  | nil => intro c hc; simp [cellsOf] at hc
  | cons b t ih =>
    have step : ∀ c ∈ cellsOf (a + 1) t, a ≤ c.1 ∧ c.1 < a + (t.length + 1) ∧ c.2 ≠ 0 := fun c hc => by
      have := ih (a + 1) c hc; exact ⟨by omega, by omega, this.2.2⟩
    intro c hc; unfold cellsOf at hc
    simp only [List.length_cons]
    split at hc
    · exact step c hc
    · rcases List.mem_cons.1 hc with rfl | hc
      · exact ⟨Nat.le_refl _, by omega, by assumption⟩
      · exact step c hc

theorem cellsOf_sorted (a : Nat) (bs : Bytes) : Bank.sorted (cellsOf a bs) = true := by
  induction bs generalizing a with
  | nil => rfl
  | cons b t ih =>
    unfold cellsOf; split
    · exact ih _
    · exact (Bank.sorted_iff _ _ _).2 ⟨fun c hc => by have := cellsOf_ge (a + 1) t c hc; omega, ih _⟩

/-- Replacing a run of bytes keeps the addresses rising. -/
theorem splice_sorted {cells : List Host.Cell} (a : Nat) (bs : Bytes) (h : Bank.sorted cells = true) :
    Bank.sorted (splice cells a bs) = true := by
  refine Bank.sorted_append (Bank.sorted_append (Bank.sorted_filter _ h) (cellsOf_sorted a bs) ?_)
    (Bank.sorted_filter _ h) ?_
  · intro c hc d hd
    have h1 := (List.mem_filter.1 hc).2
    have h2 := cellsOf_ge a bs d hd
    simp at h1; omega
  · intro c hc d hd
    have h2 := (List.mem_filter.1 hd).2
    rcases List.mem_append.1 hc with hc | hc
    · have h1 := (List.mem_filter.1 hc).2
      simp at h1 h2; omega
    · have h1 := cellsOf_ge a bs c hc
      simp at h2; omega

/-- A write keeps the canonical form. -/
theorem Memory.write_wf {m : Memory} (a : Nat) (bs : Bytes) (h : m.wf = true) : (m.write a bs).wf = true := by
  simp only [Memory.wf, Memory.write, Bool.and_eq_true, List.all_eq_true] at h ⊢
  refine ⟨splice_sorted a bs h.1, fun c hc => ?_⟩
  rcases List.mem_append.1 hc with hc | hc
  · rcases List.mem_append.1 hc with hc | hc
    · exact h.2 c (List.mem_filter.1 hc).1
    · simpa using (cellsOf_ge a bs c hc).2.2
  · exact h.2 c (List.mem_filter.1 hc).1

/-- Dropping cells keeps the canonical form. -/
theorem Memory.filter_wf {m : Memory} (p : Host.Cell → Bool) (h : m.wf = true) :
    ({ m with cells := m.cells.filter p } : Memory).wf = true := by
  simp only [Memory.wf, Bool.and_eq_true, List.all_eq_true] at h ⊢
  exact ⟨Bank.sorted_filter p h.1, fun c hc => h.2 c (List.mem_filter.1 hc).1⟩

/-- The form is a property of the cells alone. -/
theorem Memory.wf_congr {m n : Memory} (h : m.cells = n.cells) : m.wf = n.wf := by simp [Memory.wf, h]

theorem find_cellsOf (a : Nat) (bs : Bytes) (i : Nat) :
    (Bank.find (cellsOf a bs) i).getD 0#8 = if a ≤ i then (bs[i - a]?).getD 0#8 else 0#8 := by
  induction bs generalizing a with
  | nil => simp [cellsOf, Bank.find]
  | cons b t ih =>
    have tail : i ≠ a → (if a + 1 ≤ i then (t[i - (a + 1)]?).getD 0#8 else 0#8)
        = if a ≤ i then ((b :: t)[i - a]?).getD 0#8 else 0#8 := fun h => by
      by_cases hle : a + 1 ≤ i
      · rw [if_pos hle, if_pos (by omega), show i - a = (i - (a + 1)) + 1 by omega, List.getElem?_cons_succ]
      · rw [if_neg hle, if_neg (by omega)]
    unfold cellsOf; split
    · next hb =>
      rw [ih]
      by_cases h : i = a
      · subst h; rw [if_neg (by omega), if_pos (Nat.le_refl _)]; simp [hb]
      · exact tail h
    · by_cases h : i = a
      · subst h; simp [Bank.find]
      · rw [← tail h, ← ih]; simp [Bank.find, Ne.symm h]

theorem find_filter (l : List Host.Cell) (p : Nat → Bool) (i : Nat) :
    Bank.find (l.filter fun c => p c.1) i = if p i then Bank.find l i else none := by
  induction l with
  | nil => simp [Bank.find]
  | cons c t ih =>
    rw [List.filter_cons]
    by_cases hp : p c.1 <;> by_cases hc : c.1 = i <;> simp_all [Bank.find]

theorem find_append (l m : List Host.Cell) (i : Nat) : Bank.find (l ++ m) i = (Bank.find l i).or (Bank.find m i) := by
  induction l with
  | nil => simp [Bank.find]
  | cons c t ih => by_cases hc : c.1 = i <;> simp_all [Bank.find]

theorem find_none_of (l : List Host.Cell) (i : Nat) (h : ∀ c ∈ l, c.1 ≠ i) : Bank.find l i = none := by
  induction l with
  | nil => rfl
  | cons c t ih => simp [Bank.find, h c (by simp), ih fun d hd => h d (by simp [hd])]

/-- Read after write: the bytes written inside the run, what was there outside it. -/
theorem Memory.byte_write (m : Memory) (a : Nat) (bs : Bytes) (i : Nat) :
    (m.write a bs).byte i = if a ≤ i ∧ i < a + bs.length then (bs[i - a]?).getD 0 else m.byte i := by
  have hf : ∀ (p : Nat → Bool), Bank.find (m.cells.filter fun c => p c.1) i = if p i then Bank.find m.cells i else none :=
    fun p => find_filter _ p i
  simp only [Memory.byte, Memory.write, splice, find_append]
  have h1 := hf (fun x => decide (x < a))
  have h2 := hf (fun x => decide (a + bs.length ≤ x))
  simp only [decide_eq_true_eq] at h1 h2
  rw [h1, h2]
  by_cases hlo : i < a
  · have hn : Bank.find (cellsOf a bs) i = none := find_none_of _ _ fun c hc => by
      have := cellsOf_ge a bs c hc; omega
    simp [hlo, hn, show ¬a ≤ i by omega, show ¬a + bs.length ≤ i by omega]
  · by_cases hhi : a + bs.length ≤ i
    · have hn : Bank.find (cellsOf a bs) i = none := find_none_of _ _ fun c hc => by
        have := cellsOf_ge a bs c hc; omega
      simp [hlo, hhi, hn, show ¬i < a + bs.length by omega]
    · have := find_cellsOf a bs i
      rw [if_pos (by omega)] at this
      simpa [hlo, hhi, show a ≤ i by omega, show i < a + bs.length by omega] using this

end Sys2Proof.Machine
end

