-- ==== Sys2Proof/Laws/Cells.lean ====
section
/-! SUPPORT. Every operation that changes the cells of memory keeps their canonical form, and reset memory has it. -/

namespace Sys2Proof.Machine

theorem State.reset_mem_wf : State.reset.mem.wf = true := by decide

theorem State.storePage_wf {s : State} (p : Polder) (page : Nat) (bs : Bytes) (h : s.mem.wf = true) :
    (s.storePage p page bs).mem.wf = true := by
  exact (Memory.wf_congr rfl).trans (Memory.write_wf (4096 * page) (fitBytes 4096 bs) h)

theorem State.scratchWrite_wf {s : State} (dpa : Nat) (bs : Bytes) (h : s.mem.wf = true) :
    (s.scratchWrite dpa bs).mem.wf = true := by
  unfold State.scratchWrite
  split
  · exact h
  · exact Memory.write_wf dpa bs h

theorem State.scrubPieces_wf {s : State} (vs : List Nat) (h : s.mem.wf = true) : (s.scrubPieces vs).mem.wf = true := by
  exact (Memory.wf_congr rfl).trans (Memory.filter_wf (fun c => !inPieces vs c.1) h)

theorem State.zeroQuarter_wf {s : State} (n q : Nat) (h : s.mem.wf = true) : (s.zeroQuarter n q).mem.wf = true := by
  exact Memory.filter_wf _ h

theorem State.zeroBasin_wf {s : State} (h : s.mem.wf = true) : s.zeroBasin.mem.wf = true := by
  exact Memory.filter_wf _ h

theorem sorted_shift {cells : List Host.Cell} (f : Nat → Nat) (h : Bank.sorted cells = true)
    (hf : ∀ c ∈ cells, ∀ d ∈ cells, c.1 < d.1 → f c.1 < f d.1) :
    Bank.sorted (cells.map fun c => (f c.1, c.2)) = true := by
  induction cells with
  | nil => rfl
  | cons c t ih =>
    obtain ⟨ha, ht⟩ := (Bank.sorted_iff c.1 c.2 t).1 h
    refine (Bank.sorted_iff _ _ _).2 ⟨fun d hd => ?_, ih ht fun a ha' b hb => hf a (by simp [ha']) b (by simp [hb])⟩
    obtain ⟨e, he, rfl⟩ := List.mem_map.1 hd
    exact hf c (by simp) e (by simp [he]) (ha e he)

/-- Moving a run of cells keeps the canonical form. -/
theorem State.moveCells_wf {m : Memory} (lo lo' len : Nat) (drop : Nat → Bool) (h : m.wf = true) :
    ({ m with cells := State.moveCells m.cells lo lo' len drop } : Memory).wf = true := by
  simp only [Memory.wf, Bool.and_eq_true, List.all_eq_true] at h ⊢
  unfold State.moveCells
  refine ⟨?_, fun c hc => ?_⟩
  · have sub := Bank.sorted_filter
      (fun c : Host.Cell => (decide (lo ≤ c.1) && decide (c.1 < lo + len)) && !drop (c.1 / 4096)) h.1
    refine Bank.sorted_append (Bank.sorted_append (Bank.sorted_filter _ (Bank.sorted_filter _ h.1))
      (sorted_shift (fun a => a - lo + lo') sub ?_) ?_) (Bank.sorted_filter _ (Bank.sorted_filter _ h.1)) ?_
    · intro c hc d hd hlt
      have h1 := (List.mem_filter.1 hc).2
      have h2 := (List.mem_filter.1 hd).2
      simp at h1 h2; omega
    · intro c hc d hd
      obtain ⟨e, he, rfl⟩ := List.mem_map.1 hd
      have h1 := (List.mem_filter.1 hc).2
      simp at h1; dsimp only; omega
    · intro c hc d hd
      have h2 := (List.mem_filter.1 hd).2
      simp at h2
      rcases List.mem_append.1 hc with hc | hc
      · have h1 := (List.mem_filter.1 hc).2
        simp at h1; omega
      · obtain ⟨e, he, rfl⟩ := List.mem_map.1 hc
        have h1 := (List.mem_filter.1 he).2
        simp at h1; dsimp only; omega
  · rcases List.mem_append.1 hc with hc | hc
    · rcases List.mem_append.1 hc with hc | hc
      · exact h.2 c (List.mem_filter.1 (List.mem_filter.1 hc).1).1
      · obtain ⟨e, he, rfl⟩ := List.mem_map.1 hc
        exact h.2 e (List.mem_filter.1 he).1
    · exact h.2 c (List.mem_filter.1 (List.mem_filter.1 hc).1).1

theorem State.unwrite_wf {s : State} (gone : Nat → Bool) (h : s.mem.wf = true) : (s.unwrite gone).mem.wf = true := by
  exact (Memory.wf_congr rfl).trans (Memory.filter_wf (fun c => !gone c.1) h)

theorem State.raise_cells (s : State) (code sev unit : Nat) (fs : List (Nat × Nat)) (r : Route) (i : Option Nat) :
    (s.raise code sev unit fs r i).mem.cells = s.mem.cells := rfl

/-- Counting an access's activations changes no cell. -/
theorem State.activate_cells (s : State) (n : Nat) : (s.activate n).mem.cells = s.mem.cells := by
  unfold State.activate; split <;> rfl

theorem State.charge_cells (s : State) (q : Option Nat) (n b : Nat) : (s.charge q n b).mem.cells = s.mem.cells := by
  unfold State.charge; cases q <;> exact State.activate_cells s n

theorem State.noteUncorrectable_cells (s : State) (n dpa source strength : Nat) :
    (s.noteUncorrectable n dpa source strength).mem.cells = s.mem.cells := by
  unfold State.noteUncorrectable; dsimp only; split <;> rfl

theorem State.noteCorrected_cells (s : State) (n dpa data check source strength : Nat) :
    (s.noteCorrected n dpa data check source strength).mem.cells = s.mem.cells := by
  unfold State.noteCorrected; dsimp only; split <;> split <;> rfl

theorem State.countRows_cells (s : State) (n dpa : Nat) (errs : List Nat) :
    (s.countRows n dpa errs).mem.cells = s.mem.cells := by
  unfold State.countRows; split <;> rfl

/-- Reporting a decode changes no cell. -/
theorem State.noteDecode_cells (s : State) (n page source : Nat) (g : Page) :
    (s.noteDecode n page source g).mem.cells = s.mem.cells := by
  unfold State.noteDecode
  split
  · rfl
  · exact (State.countRows_cells _ _ _ _).trans (State.noteCorrected_cells _ _ _ _ _ _ _)

/-- Committing a page entry keeps the canonical form. -/
theorem State.commit_wf {s : State} (n page : Nat) (h : s.mem.wf = true) : (s.commit n page).mem.wf = true := by
  unfold State.commit
  split
  · exact h
  · next e he =>
    have hd : (s.dropEntry n page).mem.wf = true := h
    dsimp only
    split
    · exact hd
    · next p hp =>
      split
      · exact hd
      · have hc : ∀ q b, ((s.dropEntry n page).charge q n b).mem.wf = true := fun q b =>
          (Memory.wf_congr (State.charge_cells _ q n b)).trans hd
        split
        · exact State.storePage_wf _ _ _ (hc _ _)
        · split
          · exact (Memory.wf_congr rfl).trans (Memory.write_wf _ _ (hc _ _))
          · split
            · exact Memory.write_wf _ _ (hc _ _)
            · split
              · exact (Memory.wf_congr (State.noteUncorrectable_cells _ _ _ _ _)).trans
                  ((Memory.wf_congr rfl).trans (Memory.write_wf _ _ (hc _ _)))
              · refine (Memory.wf_congr rfl).trans (Memory.write_wf _ _ ?_)
                split
                · exact hc _ _
                · exact (Memory.wf_congr (State.noteDecode_cells _ _ _ _ _)).trans (hc _ _)

end Sys2Proof.Machine
end

