-- ==== Sys2Proof/Laws/Crc.lean ====
section
/-! SUPPORT. Both check sequences are 16-bit values. -/

namespace Sys2Proof.Machine

theorem crcBit_lt {c : Nat} (b : Bool) : crcBit c b < 65536 := by
  unfold crcBit; dsimp only
  have : c * 2 % 65536 < 2 ^ 16 := Nat.mod_lt _ (by decide)
  split
  · exact Nat.xor_lt_two_pow (n := 16) this (by decide)
  · exact this

theorem flitCrcBit_lt {c : Nat} (b : Bool) : flitCrcBit c b < 65536 := by
  unfold flitCrcBit; dsimp only
  have : c * 2 % 65536 < 2 ^ 16 := Nat.mod_lt _ (by decide)
  split
  · exact Nat.xor_lt_two_pow (n := 16) this (by decide)
  · exact this

theorem foldl_lt {α : Type} {f : Nat → α → Nat} {n : Nat} (hf : ∀ c a, c < n → f c a < n) (l : List α) {c : Nat} (h : c < n) :
    l.foldl f c < n := by
  induction l generalizing c with
  | nil => exact h
  | cons a t ih => exact ih (hf c a h)

/-- R710. -/
theorem crc16_lt (bs : Bytes) : crc16 bs < 65536 :=
  foldl_lt (fun _ _ h => foldl_lt (fun _ _ _ => crcBit_lt _) _ h) bs (by decide)

/-- R760. -/
theorem flitCrc_lt (bs : Bytes) : flitCrc bs < 65536 :=
  foldl_lt (fun _ _ h => foldl_lt (fun _ _ _ => flitCrcBit_lt _) _ h) bs (by decide)

end Sys2Proof.Machine
end

