-- ==== Sys2Proof/Laws/State.lean ====
section
/-! SUPPORT. One lemma per field per update of a state: the named updates change their own component alone. -/

namespace Sys2Proof.Machine.State

section Tickfree
variable (s : State)

@[simp] theorem tickFree_pending : (s.tickFree).pending = s.pending := rfl
@[simp] theorem tickFree_out : (s.tickFree).out = s.out := rfl
@[simp] theorem tickFree_heldOut : (s.tickFree).heldOut = s.heldOut := rfl
@[simp] theorem tickFree_boot : (s.tickFree).boot = s.boot := rfl
@[simp] theorem tickFree_flash : (s.tickFree).flash = s.flash := rfl
@[simp] theorem tickFree_clk : (s.tickFree).clk = s.clk := rfl
@[simp] theorem tickFree_kym : (s.tickFree).kym = s.kym := rfl
@[simp] theorem tickFree_orders : (s.tickFree).orders = s.orders := rfl
@[simp] theorem tickFree_ev : (s.tickFree).ev = s.ev := rfl
@[simp] theorem tickFree_host : (s.tickFree).host = s.host := rfl
@[simp] theorem tickFree_mem : (s.tickFree).mem = s.mem := rfl
@[simp] theorem tickFree_basin : (s.tickFree).basin = s.basin := rfl
@[simp] theorem tickFree_svc : (s.tickFree).svc = s.svc := rfl
@[simp] theorem tickFree_sealed : (s.tickFree).sealed = s.sealed := rfl
@[simp] theorem tickFree_xlat : (s.tickFree).xlat = s.xlat := rfl
@[simp] theorem tickFree_pumps : (s.tickFree).pumps = s.pumps := rfl
@[simp] theorem tickFree_inf : (s.tickFree).inf = s.inf := rfl
@[simp] theorem tickFree_gath : (s.tickFree).gath = s.gath := rfl
@[simp] theorem tickFree_prog : (s.tickFree).prog = s.prog := rfl
@[simp] theorem tickFree_d2d : (s.tickFree).d2d = s.d2d := rfl
@[simp] theorem tickFree_link : (s.tickFree).link = s.link := rfl
@[simp] theorem tickFree_cohort : (s.tickFree).cohort = s.cohort := rfl
@[simp] theorem tickFree_power : (s.tickFree).power = s.power := rfl

end Tickfree

section Emit
variable (s : State) (o : Out)

@[simp] theorem emit_pending : (s.emit o).pending = s.pending := rfl
@[simp] theorem emit_freeCtr : (s.emit o).freeCtr = s.freeCtr := rfl
@[simp] theorem emit_boot : (s.emit o).boot = s.boot := rfl
@[simp] theorem emit_flash : (s.emit o).flash = s.flash := rfl
@[simp] theorem emit_clk : (s.emit o).clk = s.clk := rfl
@[simp] theorem emit_kym : (s.emit o).kym = s.kym := rfl
@[simp] theorem emit_orders : (s.emit o).orders = s.orders := rfl
@[simp] theorem emit_ev : (s.emit o).ev = s.ev := rfl
@[simp] theorem emit_host : (s.emit o).host = s.host := rfl
@[simp] theorem emit_mem : (s.emit o).mem = s.mem := rfl
@[simp] theorem emit_basin : (s.emit o).basin = s.basin := rfl
@[simp] theorem emit_svc : (s.emit o).svc = s.svc := rfl
@[simp] theorem emit_sealed : (s.emit o).sealed = s.sealed := rfl
@[simp] theorem emit_xlat : (s.emit o).xlat = s.xlat := rfl
@[simp] theorem emit_pumps : (s.emit o).pumps = s.pumps := rfl
@[simp] theorem emit_inf : (s.emit o).inf = s.inf := rfl
@[simp] theorem emit_gath : (s.emit o).gath = s.gath := rfl
@[simp] theorem emit_prog : (s.emit o).prog = s.prog := rfl
@[simp] theorem emit_d2d : (s.emit o).d2d = s.d2d := rfl
@[simp] theorem emit_link : (s.emit o).link = s.link := rfl
@[simp] theorem emit_cohort : (s.emit o).cohort = s.cohort := rfl
@[simp] theorem emit_power : (s.emit o).power = s.power := rfl

end Emit

section Sethostfn
variable (s : State) (f : Nat) (h : HostFn)

@[simp] theorem setHostFn_pending : (s.setHostFn f h).pending = s.pending := rfl
@[simp] theorem setHostFn_freeCtr : (s.setHostFn f h).freeCtr = s.freeCtr := rfl
@[simp] theorem setHostFn_out : (s.setHostFn f h).out = s.out := rfl
@[simp] theorem setHostFn_heldOut : (s.setHostFn f h).heldOut = s.heldOut := rfl
@[simp] theorem setHostFn_boot : (s.setHostFn f h).boot = s.boot := rfl
@[simp] theorem setHostFn_flash : (s.setHostFn f h).flash = s.flash := rfl
@[simp] theorem setHostFn_clk : (s.setHostFn f h).clk = s.clk := rfl
@[simp] theorem setHostFn_kym : (s.setHostFn f h).kym = s.kym := rfl
@[simp] theorem setHostFn_orders : (s.setHostFn f h).orders = s.orders := rfl
@[simp] theorem setHostFn_ev : (s.setHostFn f h).ev = s.ev := rfl
@[simp] theorem setHostFn_mem : (s.setHostFn f h).mem = s.mem := rfl
@[simp] theorem setHostFn_basin : (s.setHostFn f h).basin = s.basin := rfl
@[simp] theorem setHostFn_svc : (s.setHostFn f h).svc = s.svc := rfl
@[simp] theorem setHostFn_sealed : (s.setHostFn f h).sealed = s.sealed := rfl
@[simp] theorem setHostFn_xlat : (s.setHostFn f h).xlat = s.xlat := rfl
@[simp] theorem setHostFn_pumps : (s.setHostFn f h).pumps = s.pumps := rfl
@[simp] theorem setHostFn_inf : (s.setHostFn f h).inf = s.inf := rfl
@[simp] theorem setHostFn_gath : (s.setHostFn f h).gath = s.gath := rfl
@[simp] theorem setHostFn_prog : (s.setHostFn f h).prog = s.prog := rfl
@[simp] theorem setHostFn_d2d : (s.setHostFn f h).d2d = s.d2d := rfl
@[simp] theorem setHostFn_link : (s.setHostFn f h).link = s.link := rfl
@[simp] theorem setHostFn_cohort : (s.setHostFn f h).cohort = s.cohort := rfl
@[simp] theorem setHostFn_power : (s.setHostFn f h).power = s.power := rfl

end Sethostfn

section Setkymfn
variable (s : State) (f : Nat) (k : KymFn)

@[simp] theorem setKymFn_pending : (s.setKymFn f k).pending = s.pending := rfl
@[simp] theorem setKymFn_freeCtr : (s.setKymFn f k).freeCtr = s.freeCtr := rfl
@[simp] theorem setKymFn_out : (s.setKymFn f k).out = s.out := rfl
@[simp] theorem setKymFn_heldOut : (s.setKymFn f k).heldOut = s.heldOut := rfl
@[simp] theorem setKymFn_boot : (s.setKymFn f k).boot = s.boot := rfl
@[simp] theorem setKymFn_flash : (s.setKymFn f k).flash = s.flash := rfl
@[simp] theorem setKymFn_clk : (s.setKymFn f k).clk = s.clk := rfl
@[simp] theorem setKymFn_orders : (s.setKymFn f k).orders = s.orders := rfl
@[simp] theorem setKymFn_ev : (s.setKymFn f k).ev = s.ev := rfl
@[simp] theorem setKymFn_host : (s.setKymFn f k).host = s.host := rfl
@[simp] theorem setKymFn_mem : (s.setKymFn f k).mem = s.mem := rfl
@[simp] theorem setKymFn_basin : (s.setKymFn f k).basin = s.basin := rfl
@[simp] theorem setKymFn_svc : (s.setKymFn f k).svc = s.svc := rfl
@[simp] theorem setKymFn_sealed : (s.setKymFn f k).sealed = s.sealed := rfl
@[simp] theorem setKymFn_xlat : (s.setKymFn f k).xlat = s.xlat := rfl
@[simp] theorem setKymFn_pumps : (s.setKymFn f k).pumps = s.pumps := rfl
@[simp] theorem setKymFn_inf : (s.setKymFn f k).inf = s.inf := rfl
@[simp] theorem setKymFn_gath : (s.setKymFn f k).gath = s.gath := rfl
@[simp] theorem setKymFn_prog : (s.setKymFn f k).prog = s.prog := rfl
@[simp] theorem setKymFn_d2d : (s.setKymFn f k).d2d = s.d2d := rfl
@[simp] theorem setKymFn_link : (s.setKymFn f k).link = s.link := rfl
@[simp] theorem setKymFn_cohort : (s.setKymFn f k).cohort = s.cohort := rfl
@[simp] theorem setKymFn_power : (s.setKymFn f k).power = s.power := rfl

end Setkymfn

section Setpair
variable (s : State) (f q : Nat) (p : QPair)

@[simp] theorem setPair_pending : (s.setPair f q p).pending = s.pending := rfl
@[simp] theorem setPair_freeCtr : (s.setPair f q p).freeCtr = s.freeCtr := rfl
@[simp] theorem setPair_out : (s.setPair f q p).out = s.out := rfl
@[simp] theorem setPair_heldOut : (s.setPair f q p).heldOut = s.heldOut := rfl
@[simp] theorem setPair_boot : (s.setPair f q p).boot = s.boot := rfl
@[simp] theorem setPair_flash : (s.setPair f q p).flash = s.flash := rfl
@[simp] theorem setPair_clk : (s.setPair f q p).clk = s.clk := rfl
@[simp] theorem setPair_orders : (s.setPair f q p).orders = s.orders := rfl
@[simp] theorem setPair_ev : (s.setPair f q p).ev = s.ev := rfl
@[simp] theorem setPair_host : (s.setPair f q p).host = s.host := rfl
@[simp] theorem setPair_mem : (s.setPair f q p).mem = s.mem := rfl
@[simp] theorem setPair_basin : (s.setPair f q p).basin = s.basin := rfl
@[simp] theorem setPair_svc : (s.setPair f q p).svc = s.svc := rfl
@[simp] theorem setPair_sealed : (s.setPair f q p).sealed = s.sealed := rfl
@[simp] theorem setPair_xlat : (s.setPair f q p).xlat = s.xlat := rfl
@[simp] theorem setPair_pumps : (s.setPair f q p).pumps = s.pumps := rfl
@[simp] theorem setPair_inf : (s.setPair f q p).inf = s.inf := rfl
@[simp] theorem setPair_gath : (s.setPair f q p).gath = s.gath := rfl
@[simp] theorem setPair_prog : (s.setPair f q p).prog = s.prog := rfl
@[simp] theorem setPair_d2d : (s.setPair f q p).d2d = s.d2d := rfl
@[simp] theorem setPair_link : (s.setPair f q p).link = s.link := rfl
@[simp] theorem setPair_cohort : (s.setPair f q p).cohort = s.cohort := rfl
@[simp] theorem setPair_power : (s.setPair f q p).power = s.power := rfl

end Setpair

section Setseq
variable (s : State) (p : Path) (q : SeqState)

@[simp] theorem setSeq_pending : (s.setSeq p q).pending = s.pending := rfl
@[simp] theorem setSeq_freeCtr : (s.setSeq p q).freeCtr = s.freeCtr := rfl
@[simp] theorem setSeq_out : (s.setSeq p q).out = s.out := rfl
@[simp] theorem setSeq_heldOut : (s.setSeq p q).heldOut = s.heldOut := rfl
@[simp] theorem setSeq_boot : (s.setSeq p q).boot = s.boot := rfl
@[simp] theorem setSeq_flash : (s.setSeq p q).flash = s.flash := rfl
@[simp] theorem setSeq_clk : (s.setSeq p q).clk = s.clk := rfl
@[simp] theorem setSeq_orders : (s.setSeq p q).orders = s.orders := rfl
@[simp] theorem setSeq_ev : (s.setSeq p q).ev = s.ev := rfl
@[simp] theorem setSeq_host : (s.setSeq p q).host = s.host := rfl
@[simp] theorem setSeq_mem : (s.setSeq p q).mem = s.mem := rfl
@[simp] theorem setSeq_basin : (s.setSeq p q).basin = s.basin := rfl
@[simp] theorem setSeq_svc : (s.setSeq p q).svc = s.svc := rfl
@[simp] theorem setSeq_sealed : (s.setSeq p q).sealed = s.sealed := rfl
@[simp] theorem setSeq_xlat : (s.setSeq p q).xlat = s.xlat := rfl
@[simp] theorem setSeq_pumps : (s.setSeq p q).pumps = s.pumps := rfl
@[simp] theorem setSeq_inf : (s.setSeq p q).inf = s.inf := rfl
@[simp] theorem setSeq_gath : (s.setSeq p q).gath = s.gath := rfl
@[simp] theorem setSeq_prog : (s.setSeq p q).prog = s.prog := rfl
@[simp] theorem setSeq_d2d : (s.setSeq p q).d2d = s.d2d := rfl
@[simp] theorem setSeq_link : (s.setSeq p q).link = s.link := rfl
@[simp] theorem setSeq_cohort : (s.setSeq p q).cohort = s.cohort := rfl
@[simp] theorem setSeq_power : (s.setSeq p q).power = s.power := rfl

end Setseq

section Droplease
variable (s : State) (ref holder : Nat)

@[simp] theorem dropLease_pending : (s.dropLease ref holder).pending = s.pending := rfl
@[simp] theorem dropLease_freeCtr : (s.dropLease ref holder).freeCtr = s.freeCtr := rfl
@[simp] theorem dropLease_out : (s.dropLease ref holder).out = s.out := rfl
@[simp] theorem dropLease_heldOut : (s.dropLease ref holder).heldOut = s.heldOut := rfl
@[simp] theorem dropLease_boot : (s.dropLease ref holder).boot = s.boot := rfl
@[simp] theorem dropLease_flash : (s.dropLease ref holder).flash = s.flash := rfl
@[simp] theorem dropLease_clk : (s.dropLease ref holder).clk = s.clk := rfl
@[simp] theorem dropLease_orders : (s.dropLease ref holder).orders = s.orders := rfl
@[simp] theorem dropLease_ev : (s.dropLease ref holder).ev = s.ev := rfl
@[simp] theorem dropLease_host : (s.dropLease ref holder).host = s.host := rfl
@[simp] theorem dropLease_mem : (s.dropLease ref holder).mem = s.mem := rfl
@[simp] theorem dropLease_basin : (s.dropLease ref holder).basin = s.basin := rfl
@[simp] theorem dropLease_svc : (s.dropLease ref holder).svc = s.svc := rfl
@[simp] theorem dropLease_sealed : (s.dropLease ref holder).sealed = s.sealed := rfl
@[simp] theorem dropLease_xlat : (s.dropLease ref holder).xlat = s.xlat := rfl
@[simp] theorem dropLease_pumps : (s.dropLease ref holder).pumps = s.pumps := rfl
@[simp] theorem dropLease_inf : (s.dropLease ref holder).inf = s.inf := rfl
@[simp] theorem dropLease_gath : (s.dropLease ref holder).gath = s.gath := rfl
@[simp] theorem dropLease_prog : (s.dropLease ref holder).prog = s.prog := rfl
@[simp] theorem dropLease_d2d : (s.dropLease ref holder).d2d = s.d2d := rfl
@[simp] theorem dropLease_link : (s.dropLease ref holder).link = s.link := rfl
@[simp] theorem dropLease_cohort : (s.dropLease ref holder).cohort = s.cohort := rfl
@[simp] theorem dropLease_power : (s.dropLease ref holder).power = s.power := rfl

end Droplease

section Dropleaseson
variable (s : State) (ref : Nat)

@[simp] theorem dropLeasesOn_pending : (s.dropLeasesOn ref).pending = s.pending := rfl
@[simp] theorem dropLeasesOn_freeCtr : (s.dropLeasesOn ref).freeCtr = s.freeCtr := rfl
@[simp] theorem dropLeasesOn_out : (s.dropLeasesOn ref).out = s.out := rfl
@[simp] theorem dropLeasesOn_heldOut : (s.dropLeasesOn ref).heldOut = s.heldOut := rfl
@[simp] theorem dropLeasesOn_boot : (s.dropLeasesOn ref).boot = s.boot := rfl
@[simp] theorem dropLeasesOn_flash : (s.dropLeasesOn ref).flash = s.flash := rfl
@[simp] theorem dropLeasesOn_clk : (s.dropLeasesOn ref).clk = s.clk := rfl
@[simp] theorem dropLeasesOn_orders : (s.dropLeasesOn ref).orders = s.orders := rfl
@[simp] theorem dropLeasesOn_ev : (s.dropLeasesOn ref).ev = s.ev := rfl
@[simp] theorem dropLeasesOn_host : (s.dropLeasesOn ref).host = s.host := rfl
@[simp] theorem dropLeasesOn_mem : (s.dropLeasesOn ref).mem = s.mem := rfl
@[simp] theorem dropLeasesOn_basin : (s.dropLeasesOn ref).basin = s.basin := rfl
@[simp] theorem dropLeasesOn_svc : (s.dropLeasesOn ref).svc = s.svc := rfl
@[simp] theorem dropLeasesOn_sealed : (s.dropLeasesOn ref).sealed = s.sealed := rfl
@[simp] theorem dropLeasesOn_xlat : (s.dropLeasesOn ref).xlat = s.xlat := rfl
@[simp] theorem dropLeasesOn_pumps : (s.dropLeasesOn ref).pumps = s.pumps := rfl
@[simp] theorem dropLeasesOn_inf : (s.dropLeasesOn ref).inf = s.inf := rfl
@[simp] theorem dropLeasesOn_gath : (s.dropLeasesOn ref).gath = s.gath := rfl
@[simp] theorem dropLeasesOn_prog : (s.dropLeasesOn ref).prog = s.prog := rfl
@[simp] theorem dropLeasesOn_d2d : (s.dropLeasesOn ref).d2d = s.d2d := rfl
@[simp] theorem dropLeasesOn_link : (s.dropLeasesOn ref).link = s.link := rfl
@[simp] theorem dropLeasesOn_cohort : (s.dropLeasesOn ref).cohort = s.cohort := rfl
@[simp] theorem dropLeasesOn_power : (s.dropLeasesOn ref).power = s.power := rfl

end Dropleaseson

section Bumpgen
variable (s : State) (ref : Nat)

@[simp] theorem bumpGen_pending : (s.bumpGen ref).pending = s.pending := rfl
@[simp] theorem bumpGen_freeCtr : (s.bumpGen ref).freeCtr = s.freeCtr := rfl
@[simp] theorem bumpGen_out : (s.bumpGen ref).out = s.out := rfl
@[simp] theorem bumpGen_heldOut : (s.bumpGen ref).heldOut = s.heldOut := rfl
@[simp] theorem bumpGen_boot : (s.bumpGen ref).boot = s.boot := rfl
@[simp] theorem bumpGen_flash : (s.bumpGen ref).flash = s.flash := rfl
@[simp] theorem bumpGen_clk : (s.bumpGen ref).clk = s.clk := rfl
@[simp] theorem bumpGen_orders : (s.bumpGen ref).orders = s.orders := rfl
@[simp] theorem bumpGen_ev : (s.bumpGen ref).ev = s.ev := rfl
@[simp] theorem bumpGen_host : (s.bumpGen ref).host = s.host := rfl
@[simp] theorem bumpGen_mem : (s.bumpGen ref).mem = s.mem := rfl
@[simp] theorem bumpGen_basin : (s.bumpGen ref).basin = s.basin := rfl
@[simp] theorem bumpGen_svc : (s.bumpGen ref).svc = s.svc := rfl
@[simp] theorem bumpGen_sealed : (s.bumpGen ref).sealed = s.sealed := rfl
@[simp] theorem bumpGen_xlat : (s.bumpGen ref).xlat = s.xlat := rfl
@[simp] theorem bumpGen_pumps : (s.bumpGen ref).pumps = s.pumps := rfl
@[simp] theorem bumpGen_inf : (s.bumpGen ref).inf = s.inf := rfl
@[simp] theorem bumpGen_gath : (s.bumpGen ref).gath = s.gath := rfl
@[simp] theorem bumpGen_prog : (s.bumpGen ref).prog = s.prog := rfl
@[simp] theorem bumpGen_d2d : (s.bumpGen ref).d2d = s.d2d := rfl
@[simp] theorem bumpGen_link : (s.bumpGen ref).link = s.link := rfl
@[simp] theorem bumpGen_cohort : (s.bumpGen ref).cohort = s.cohort := rfl
@[simp] theorem bumpGen_power : (s.bumpGen ref).power = s.power := rfl

end Bumpgen

section Ring
variable (s : State) (pos : Nat)

@[simp] theorem ring_pending : (s.ring pos).pending = s.pending := rfl
@[simp] theorem ring_freeCtr : (s.ring pos).freeCtr = s.freeCtr := rfl
@[simp] theorem ring_out : (s.ring pos).out = s.out := rfl
@[simp] theorem ring_heldOut : (s.ring pos).heldOut = s.heldOut := rfl
@[simp] theorem ring_boot : (s.ring pos).boot = s.boot := rfl
@[simp] theorem ring_flash : (s.ring pos).flash = s.flash := rfl
@[simp] theorem ring_clk : (s.ring pos).clk = s.clk := rfl
@[simp] theorem ring_orders : (s.ring pos).orders = s.orders := rfl
@[simp] theorem ring_ev : (s.ring pos).ev = s.ev := rfl
@[simp] theorem ring_host : (s.ring pos).host = s.host := rfl
@[simp] theorem ring_mem : (s.ring pos).mem = s.mem := rfl
@[simp] theorem ring_basin : (s.ring pos).basin = s.basin := rfl
@[simp] theorem ring_svc : (s.ring pos).svc = s.svc := rfl
@[simp] theorem ring_sealed : (s.ring pos).sealed = s.sealed := rfl
@[simp] theorem ring_xlat : (s.ring pos).xlat = s.xlat := rfl
@[simp] theorem ring_pumps : (s.ring pos).pumps = s.pumps := rfl
@[simp] theorem ring_inf : (s.ring pos).inf = s.inf := rfl
@[simp] theorem ring_gath : (s.ring pos).gath = s.gath := rfl
@[simp] theorem ring_prog : (s.ring pos).prog = s.prog := rfl
@[simp] theorem ring_d2d : (s.ring pos).d2d = s.d2d := rfl
@[simp] theorem ring_link : (s.ring pos).link = s.link := rfl
@[simp] theorem ring_cohort : (s.ring pos).cohort = s.cohort := rfl
@[simp] theorem ring_power : (s.ring pos).power = s.power := rfl

end Ring

section Unring
variable (s : State) (pos : Nat)

@[simp] theorem unring_pending : (s.unring pos).pending = s.pending := rfl
@[simp] theorem unring_freeCtr : (s.unring pos).freeCtr = s.freeCtr := rfl
@[simp] theorem unring_out : (s.unring pos).out = s.out := rfl
@[simp] theorem unring_heldOut : (s.unring pos).heldOut = s.heldOut := rfl
@[simp] theorem unring_boot : (s.unring pos).boot = s.boot := rfl
@[simp] theorem unring_flash : (s.unring pos).flash = s.flash := rfl
@[simp] theorem unring_clk : (s.unring pos).clk = s.clk := rfl
@[simp] theorem unring_orders : (s.unring pos).orders = s.orders := rfl
@[simp] theorem unring_ev : (s.unring pos).ev = s.ev := rfl
@[simp] theorem unring_host : (s.unring pos).host = s.host := rfl
@[simp] theorem unring_mem : (s.unring pos).mem = s.mem := rfl
@[simp] theorem unring_basin : (s.unring pos).basin = s.basin := rfl
@[simp] theorem unring_svc : (s.unring pos).svc = s.svc := rfl
@[simp] theorem unring_sealed : (s.unring pos).sealed = s.sealed := rfl
@[simp] theorem unring_xlat : (s.unring pos).xlat = s.xlat := rfl
@[simp] theorem unring_pumps : (s.unring pos).pumps = s.pumps := rfl
@[simp] theorem unring_inf : (s.unring pos).inf = s.inf := rfl
@[simp] theorem unring_gath : (s.unring pos).gath = s.gath := rfl
@[simp] theorem unring_prog : (s.unring pos).prog = s.prog := rfl
@[simp] theorem unring_d2d : (s.unring pos).d2d = s.d2d := rfl
@[simp] theorem unring_link : (s.unring pos).link = s.link := rfl
@[simp] theorem unring_cohort : (s.unring pos).cohort = s.cohort := rfl
@[simp] theorem unring_power : (s.unring pos).power = s.power := rfl

end Unring

section Setqueue
variable (s : State) (f : Nat) (q : EvQueue)

@[simp] theorem setQueue_pending : (s.setQueue f q).pending = s.pending := rfl
@[simp] theorem setQueue_freeCtr : (s.setQueue f q).freeCtr = s.freeCtr := rfl
@[simp] theorem setQueue_out : (s.setQueue f q).out = s.out := rfl
@[simp] theorem setQueue_heldOut : (s.setQueue f q).heldOut = s.heldOut := rfl
@[simp] theorem setQueue_boot : (s.setQueue f q).boot = s.boot := rfl
@[simp] theorem setQueue_flash : (s.setQueue f q).flash = s.flash := rfl
@[simp] theorem setQueue_clk : (s.setQueue f q).clk = s.clk := rfl
@[simp] theorem setQueue_kym : (s.setQueue f q).kym = s.kym := rfl
@[simp] theorem setQueue_orders : (s.setQueue f q).orders = s.orders := rfl
@[simp] theorem setQueue_host : (s.setQueue f q).host = s.host := rfl
@[simp] theorem setQueue_mem : (s.setQueue f q).mem = s.mem := rfl
@[simp] theorem setQueue_basin : (s.setQueue f q).basin = s.basin := rfl
@[simp] theorem setQueue_svc : (s.setQueue f q).svc = s.svc := rfl
@[simp] theorem setQueue_sealed : (s.setQueue f q).sealed = s.sealed := rfl
@[simp] theorem setQueue_xlat : (s.setQueue f q).xlat = s.xlat := rfl
@[simp] theorem setQueue_pumps : (s.setQueue f q).pumps = s.pumps := rfl
@[simp] theorem setQueue_inf : (s.setQueue f q).inf = s.inf := rfl
@[simp] theorem setQueue_gath : (s.setQueue f q).gath = s.gath := rfl
@[simp] theorem setQueue_prog : (s.setQueue f q).prog = s.prog := rfl
@[simp] theorem setQueue_d2d : (s.setQueue f q).d2d = s.d2d := rfl
@[simp] theorem setQueue_link : (s.setQueue f q).link = s.link := rfl
@[simp] theorem setQueue_cohort : (s.setQueue f q).cohort = s.cohort := rfl
@[simp] theorem setQueue_power : (s.setQueue f q).power = s.power := rfl

end Setqueue

section Setchan
variable (s : State) (n : Nat) (c : Channel)

@[simp] theorem setChan_pending : (s.setChan n c).pending = s.pending := rfl
@[simp] theorem setChan_freeCtr : (s.setChan n c).freeCtr = s.freeCtr := rfl
@[simp] theorem setChan_out : (s.setChan n c).out = s.out := rfl
@[simp] theorem setChan_heldOut : (s.setChan n c).heldOut = s.heldOut := rfl
@[simp] theorem setChan_boot : (s.setChan n c).boot = s.boot := rfl
@[simp] theorem setChan_flash : (s.setChan n c).flash = s.flash := rfl
@[simp] theorem setChan_clk : (s.setChan n c).clk = s.clk := rfl
@[simp] theorem setChan_kym : (s.setChan n c).kym = s.kym := rfl
@[simp] theorem setChan_orders : (s.setChan n c).orders = s.orders := rfl
@[simp] theorem setChan_ev : (s.setChan n c).ev = s.ev := rfl
@[simp] theorem setChan_host : (s.setChan n c).host = s.host := rfl
@[simp] theorem setChan_basin : (s.setChan n c).basin = s.basin := rfl
@[simp] theorem setChan_svc : (s.setChan n c).svc = s.svc := rfl
@[simp] theorem setChan_sealed : (s.setChan n c).sealed = s.sealed := rfl
@[simp] theorem setChan_xlat : (s.setChan n c).xlat = s.xlat := rfl
@[simp] theorem setChan_pumps : (s.setChan n c).pumps = s.pumps := rfl
@[simp] theorem setChan_inf : (s.setChan n c).inf = s.inf := rfl
@[simp] theorem setChan_gath : (s.setChan n c).gath = s.gath := rfl
@[simp] theorem setChan_prog : (s.setChan n c).prog = s.prog := rfl
@[simp] theorem setChan_d2d : (s.setChan n c).d2d = s.d2d := rfl
@[simp] theorem setChan_link : (s.setChan n c).link = s.link := rfl
@[simp] theorem setChan_cohort : (s.setChan n c).cohort = s.cohort := rfl
@[simp] theorem setChan_power : (s.setChan n c).power = s.power := rfl

end Setchan

section Setpolder
variable (s : State) (i : Nat) (p : Polder)

@[simp] theorem setPolder_pending : (s.setPolder i p).pending = s.pending := rfl
@[simp] theorem setPolder_freeCtr : (s.setPolder i p).freeCtr = s.freeCtr := rfl
@[simp] theorem setPolder_out : (s.setPolder i p).out = s.out := rfl
@[simp] theorem setPolder_heldOut : (s.setPolder i p).heldOut = s.heldOut := rfl
@[simp] theorem setPolder_boot : (s.setPolder i p).boot = s.boot := rfl
@[simp] theorem setPolder_flash : (s.setPolder i p).flash = s.flash := rfl
@[simp] theorem setPolder_clk : (s.setPolder i p).clk = s.clk := rfl
@[simp] theorem setPolder_kym : (s.setPolder i p).kym = s.kym := rfl
@[simp] theorem setPolder_orders : (s.setPolder i p).orders = s.orders := rfl
@[simp] theorem setPolder_ev : (s.setPolder i p).ev = s.ev := rfl
@[simp] theorem setPolder_host : (s.setPolder i p).host = s.host := rfl
@[simp] theorem setPolder_basin : (s.setPolder i p).basin = s.basin := rfl
@[simp] theorem setPolder_svc : (s.setPolder i p).svc = s.svc := rfl
@[simp] theorem setPolder_sealed : (s.setPolder i p).sealed = s.sealed := rfl
@[simp] theorem setPolder_xlat : (s.setPolder i p).xlat = s.xlat := rfl
@[simp] theorem setPolder_pumps : (s.setPolder i p).pumps = s.pumps := rfl
@[simp] theorem setPolder_inf : (s.setPolder i p).inf = s.inf := rfl
@[simp] theorem setPolder_gath : (s.setPolder i p).gath = s.gath := rfl
@[simp] theorem setPolder_prog : (s.setPolder i p).prog = s.prog := rfl
@[simp] theorem setPolder_d2d : (s.setPolder i p).d2d = s.d2d := rfl
@[simp] theorem setPolder_link : (s.setPolder i p).link = s.link := rfl
@[simp] theorem setPolder_cohort : (s.setPolder i p).cohort = s.cohort := rfl
@[simp] theorem setPolder_power : (s.setPolder i p).power = s.power := rfl

end Setpolder

section Setslice
variable (s : State) (n : Nat) (x : Slice)

@[simp] theorem setSlice_pending : (s.setSlice n x).pending = s.pending := rfl
@[simp] theorem setSlice_freeCtr : (s.setSlice n x).freeCtr = s.freeCtr := rfl
@[simp] theorem setSlice_out : (s.setSlice n x).out = s.out := rfl
@[simp] theorem setSlice_heldOut : (s.setSlice n x).heldOut = s.heldOut := rfl
@[simp] theorem setSlice_boot : (s.setSlice n x).boot = s.boot := rfl
@[simp] theorem setSlice_flash : (s.setSlice n x).flash = s.flash := rfl
@[simp] theorem setSlice_clk : (s.setSlice n x).clk = s.clk := rfl
@[simp] theorem setSlice_kym : (s.setSlice n x).kym = s.kym := rfl
@[simp] theorem setSlice_orders : (s.setSlice n x).orders = s.orders := rfl
@[simp] theorem setSlice_ev : (s.setSlice n x).ev = s.ev := rfl
@[simp] theorem setSlice_host : (s.setSlice n x).host = s.host := rfl
@[simp] theorem setSlice_mem : (s.setSlice n x).mem = s.mem := rfl
@[simp] theorem setSlice_svc : (s.setSlice n x).svc = s.svc := rfl
@[simp] theorem setSlice_sealed : (s.setSlice n x).sealed = s.sealed := rfl
@[simp] theorem setSlice_xlat : (s.setSlice n x).xlat = s.xlat := rfl
@[simp] theorem setSlice_pumps : (s.setSlice n x).pumps = s.pumps := rfl
@[simp] theorem setSlice_inf : (s.setSlice n x).inf = s.inf := rfl
@[simp] theorem setSlice_gath : (s.setSlice n x).gath = s.gath := rfl
@[simp] theorem setSlice_prog : (s.setSlice n x).prog = s.prog := rfl
@[simp] theorem setSlice_d2d : (s.setSlice n x).d2d = s.d2d := rfl
@[simp] theorem setSlice_link : (s.setSlice n x).link = s.link := rfl
@[simp] theorem setSlice_cohort : (s.setSlice n x).cohort = s.cohort := rfl
@[simp] theorem setSlice_power : (s.setSlice n x).power = s.power := rfl

end Setslice

section Setorder
variable (s : State) (ref : Nat) (o : Order)

@[simp] theorem setOrder_pending : (s.setOrder ref o).pending = s.pending := rfl
@[simp] theorem setOrder_freeCtr : (s.setOrder ref o).freeCtr = s.freeCtr := rfl
@[simp] theorem setOrder_out : (s.setOrder ref o).out = s.out := rfl
@[simp] theorem setOrder_heldOut : (s.setOrder ref o).heldOut = s.heldOut := rfl
@[simp] theorem setOrder_boot : (s.setOrder ref o).boot = s.boot := rfl
@[simp] theorem setOrder_flash : (s.setOrder ref o).flash = s.flash := rfl
@[simp] theorem setOrder_clk : (s.setOrder ref o).clk = s.clk := rfl
@[simp] theorem setOrder_kym : (s.setOrder ref o).kym = s.kym := rfl
@[simp] theorem setOrder_ev : (s.setOrder ref o).ev = s.ev := rfl
@[simp] theorem setOrder_host : (s.setOrder ref o).host = s.host := rfl
@[simp] theorem setOrder_mem : (s.setOrder ref o).mem = s.mem := rfl
@[simp] theorem setOrder_basin : (s.setOrder ref o).basin = s.basin := rfl
@[simp] theorem setOrder_svc : (s.setOrder ref o).svc = s.svc := rfl
@[simp] theorem setOrder_sealed : (s.setOrder ref o).sealed = s.sealed := rfl
@[simp] theorem setOrder_xlat : (s.setOrder ref o).xlat = s.xlat := rfl
@[simp] theorem setOrder_pumps : (s.setOrder ref o).pumps = s.pumps := rfl
@[simp] theorem setOrder_inf : (s.setOrder ref o).inf = s.inf := rfl
@[simp] theorem setOrder_gath : (s.setOrder ref o).gath = s.gath := rfl
@[simp] theorem setOrder_prog : (s.setOrder ref o).prog = s.prog := rfl
@[simp] theorem setOrder_d2d : (s.setOrder ref o).d2d = s.d2d := rfl
@[simp] theorem setOrder_link : (s.setOrder ref o).link = s.link := rfl
@[simp] theorem setOrder_cohort : (s.setOrder ref o).cohort = s.cohort := rfl
@[simp] theorem setOrder_power : (s.setOrder ref o).power = s.power := rfl

end Setorder

section Setport
variable (s : State) (c : Nat) (p : ClusterPort)

@[simp] theorem setPort_pending : (s.setPort c p).pending = s.pending := rfl
@[simp] theorem setPort_freeCtr : (s.setPort c p).freeCtr = s.freeCtr := rfl
@[simp] theorem setPort_out : (s.setPort c p).out = s.out := rfl
@[simp] theorem setPort_heldOut : (s.setPort c p).heldOut = s.heldOut := rfl
@[simp] theorem setPort_boot : (s.setPort c p).boot = s.boot := rfl
@[simp] theorem setPort_flash : (s.setPort c p).flash = s.flash := rfl
@[simp] theorem setPort_clk : (s.setPort c p).clk = s.clk := rfl
@[simp] theorem setPort_kym : (s.setPort c p).kym = s.kym := rfl
@[simp] theorem setPort_orders : (s.setPort c p).orders = s.orders := rfl
@[simp] theorem setPort_ev : (s.setPort c p).ev = s.ev := rfl
@[simp] theorem setPort_host : (s.setPort c p).host = s.host := rfl
@[simp] theorem setPort_mem : (s.setPort c p).mem = s.mem := rfl
@[simp] theorem setPort_basin : (s.setPort c p).basin = s.basin := rfl
@[simp] theorem setPort_svc : (s.setPort c p).svc = s.svc := rfl
@[simp] theorem setPort_sealed : (s.setPort c p).sealed = s.sealed := rfl
@[simp] theorem setPort_xlat : (s.setPort c p).xlat = s.xlat := rfl
@[simp] theorem setPort_pumps : (s.setPort c p).pumps = s.pumps := rfl
@[simp] theorem setPort_inf : (s.setPort c p).inf = s.inf := rfl
@[simp] theorem setPort_gath : (s.setPort c p).gath = s.gath := rfl
@[simp] theorem setPort_prog : (s.setPort c p).prog = s.prog := rfl
@[simp] theorem setPort_link : (s.setPort c p).link = s.link := rfl
@[simp] theorem setPort_cohort : (s.setPort c p).cohort = s.cohort := rfl
@[simp] theorem setPort_power : (s.setPort c p).power = s.power := rfl

end Setport

section Setdie
variable (s : State) (d : Nat) (x : Die)

@[simp] theorem setDie_pending : (s.setDie d x).pending = s.pending := rfl
@[simp] theorem setDie_freeCtr : (s.setDie d x).freeCtr = s.freeCtr := rfl
@[simp] theorem setDie_out : (s.setDie d x).out = s.out := rfl
@[simp] theorem setDie_heldOut : (s.setDie d x).heldOut = s.heldOut := rfl
@[simp] theorem setDie_boot : (s.setDie d x).boot = s.boot := rfl
@[simp] theorem setDie_flash : (s.setDie d x).flash = s.flash := rfl
@[simp] theorem setDie_clk : (s.setDie d x).clk = s.clk := rfl
@[simp] theorem setDie_kym : (s.setDie d x).kym = s.kym := rfl
@[simp] theorem setDie_orders : (s.setDie d x).orders = s.orders := rfl
@[simp] theorem setDie_ev : (s.setDie d x).ev = s.ev := rfl
@[simp] theorem setDie_host : (s.setDie d x).host = s.host := rfl
@[simp] theorem setDie_mem : (s.setDie d x).mem = s.mem := rfl
@[simp] theorem setDie_basin : (s.setDie d x).basin = s.basin := rfl
@[simp] theorem setDie_svc : (s.setDie d x).svc = s.svc := rfl
@[simp] theorem setDie_sealed : (s.setDie d x).sealed = s.sealed := rfl
@[simp] theorem setDie_xlat : (s.setDie d x).xlat = s.xlat := rfl
@[simp] theorem setDie_pumps : (s.setDie d x).pumps = s.pumps := rfl
@[simp] theorem setDie_inf : (s.setDie d x).inf = s.inf := rfl
@[simp] theorem setDie_gath : (s.setDie d x).gath = s.gath := rfl
@[simp] theorem setDie_prog : (s.setDie d x).prog = s.prog := rfl
@[simp] theorem setDie_link : (s.setDie d x).link = s.link := rfl
@[simp] theorem setDie_cohort : (s.setDie d x).cohort = s.cohort := rfl
@[simp] theorem setDie_power : (s.setDie d x).power = s.power := rfl

end Setdie

section Setlane
variable (s : State) (l : Nat) (x : Lane)

@[simp] theorem setLane_pending : (s.setLane l x).pending = s.pending := rfl
@[simp] theorem setLane_freeCtr : (s.setLane l x).freeCtr = s.freeCtr := rfl
@[simp] theorem setLane_out : (s.setLane l x).out = s.out := rfl
@[simp] theorem setLane_heldOut : (s.setLane l x).heldOut = s.heldOut := rfl
@[simp] theorem setLane_boot : (s.setLane l x).boot = s.boot := rfl
@[simp] theorem setLane_flash : (s.setLane l x).flash = s.flash := rfl
@[simp] theorem setLane_clk : (s.setLane l x).clk = s.clk := rfl
@[simp] theorem setLane_kym : (s.setLane l x).kym = s.kym := rfl
@[simp] theorem setLane_orders : (s.setLane l x).orders = s.orders := rfl
@[simp] theorem setLane_ev : (s.setLane l x).ev = s.ev := rfl
@[simp] theorem setLane_host : (s.setLane l x).host = s.host := rfl
@[simp] theorem setLane_mem : (s.setLane l x).mem = s.mem := rfl
@[simp] theorem setLane_basin : (s.setLane l x).basin = s.basin := rfl
@[simp] theorem setLane_svc : (s.setLane l x).svc = s.svc := rfl
@[simp] theorem setLane_sealed : (s.setLane l x).sealed = s.sealed := rfl
@[simp] theorem setLane_xlat : (s.setLane l x).xlat = s.xlat := rfl
@[simp] theorem setLane_pumps : (s.setLane l x).pumps = s.pumps := rfl
@[simp] theorem setLane_inf : (s.setLane l x).inf = s.inf := rfl
@[simp] theorem setLane_prog : (s.setLane l x).prog = s.prog := rfl
@[simp] theorem setLane_d2d : (s.setLane l x).d2d = s.d2d := rfl
@[simp] theorem setLane_link : (s.setLane l x).link = s.link := rfl
@[simp] theorem setLane_cohort : (s.setLane l x).cohort = s.cohort := rfl
@[simp] theorem setLane_power : (s.setLane l x).power = s.power := rfl

end Setlane

section Setinfunit
variable (s : State) (u : Nat) (x : InfUnit)

@[simp] theorem setInfUnit_pending : (s.setInfUnit u x).pending = s.pending := rfl
@[simp] theorem setInfUnit_freeCtr : (s.setInfUnit u x).freeCtr = s.freeCtr := rfl
@[simp] theorem setInfUnit_out : (s.setInfUnit u x).out = s.out := rfl
@[simp] theorem setInfUnit_heldOut : (s.setInfUnit u x).heldOut = s.heldOut := rfl
@[simp] theorem setInfUnit_boot : (s.setInfUnit u x).boot = s.boot := rfl
@[simp] theorem setInfUnit_flash : (s.setInfUnit u x).flash = s.flash := rfl
@[simp] theorem setInfUnit_clk : (s.setInfUnit u x).clk = s.clk := rfl
@[simp] theorem setInfUnit_kym : (s.setInfUnit u x).kym = s.kym := rfl
@[simp] theorem setInfUnit_orders : (s.setInfUnit u x).orders = s.orders := rfl
@[simp] theorem setInfUnit_ev : (s.setInfUnit u x).ev = s.ev := rfl
@[simp] theorem setInfUnit_host : (s.setInfUnit u x).host = s.host := rfl
@[simp] theorem setInfUnit_mem : (s.setInfUnit u x).mem = s.mem := rfl
@[simp] theorem setInfUnit_basin : (s.setInfUnit u x).basin = s.basin := rfl
@[simp] theorem setInfUnit_svc : (s.setInfUnit u x).svc = s.svc := rfl
@[simp] theorem setInfUnit_sealed : (s.setInfUnit u x).sealed = s.sealed := rfl
@[simp] theorem setInfUnit_xlat : (s.setInfUnit u x).xlat = s.xlat := rfl
@[simp] theorem setInfUnit_pumps : (s.setInfUnit u x).pumps = s.pumps := rfl
@[simp] theorem setInfUnit_gath : (s.setInfUnit u x).gath = s.gath := rfl
@[simp] theorem setInfUnit_prog : (s.setInfUnit u x).prog = s.prog := rfl
@[simp] theorem setInfUnit_d2d : (s.setInfUnit u x).d2d = s.d2d := rfl
@[simp] theorem setInfUnit_link : (s.setInfUnit u x).link = s.link := rfl
@[simp] theorem setInfUnit_cohort : (s.setInfUnit u x).cohort = s.cohort := rfl
@[simp] theorem setInfUnit_power : (s.setInfUnit u x).power = s.power := rfl

end Setinfunit

section Setlport
variable (s : State) (p : Nat) (x : LinkPort)

@[simp] theorem setLport_pending : (s.setLport p x).pending = s.pending := rfl
@[simp] theorem setLport_freeCtr : (s.setLport p x).freeCtr = s.freeCtr := rfl
@[simp] theorem setLport_out : (s.setLport p x).out = s.out := rfl
@[simp] theorem setLport_heldOut : (s.setLport p x).heldOut = s.heldOut := rfl
@[simp] theorem setLport_boot : (s.setLport p x).boot = s.boot := rfl
@[simp] theorem setLport_flash : (s.setLport p x).flash = s.flash := rfl
@[simp] theorem setLport_clk : (s.setLport p x).clk = s.clk := rfl
@[simp] theorem setLport_kym : (s.setLport p x).kym = s.kym := rfl
@[simp] theorem setLport_orders : (s.setLport p x).orders = s.orders := rfl
@[simp] theorem setLport_ev : (s.setLport p x).ev = s.ev := rfl
@[simp] theorem setLport_host : (s.setLport p x).host = s.host := rfl
@[simp] theorem setLport_mem : (s.setLport p x).mem = s.mem := rfl
@[simp] theorem setLport_basin : (s.setLport p x).basin = s.basin := rfl
@[simp] theorem setLport_svc : (s.setLport p x).svc = s.svc := rfl
@[simp] theorem setLport_sealed : (s.setLport p x).sealed = s.sealed := rfl
@[simp] theorem setLport_xlat : (s.setLport p x).xlat = s.xlat := rfl
@[simp] theorem setLport_pumps : (s.setLport p x).pumps = s.pumps := rfl
@[simp] theorem setLport_inf : (s.setLport p x).inf = s.inf := rfl
@[simp] theorem setLport_gath : (s.setLport p x).gath = s.gath := rfl
@[simp] theorem setLport_prog : (s.setLport p x).prog = s.prog := rfl
@[simp] theorem setLport_d2d : (s.setLport p x).d2d = s.d2d := rfl
@[simp] theorem setLport_cohort : (s.setLport p x).cohort = s.cohort := rfl
@[simp] theorem setLport_power : (s.setLport p x).power = s.power := rfl

end Setlport

section Setpchan
variable (s : State) (k : Nat) (x : PumpChan)

@[simp] theorem setPchan_pending : (s.setPchan k x).pending = s.pending := rfl
@[simp] theorem setPchan_freeCtr : (s.setPchan k x).freeCtr = s.freeCtr := rfl
@[simp] theorem setPchan_out : (s.setPchan k x).out = s.out := rfl
@[simp] theorem setPchan_heldOut : (s.setPchan k x).heldOut = s.heldOut := rfl
@[simp] theorem setPchan_boot : (s.setPchan k x).boot = s.boot := rfl
@[simp] theorem setPchan_flash : (s.setPchan k x).flash = s.flash := rfl
@[simp] theorem setPchan_clk : (s.setPchan k x).clk = s.clk := rfl
@[simp] theorem setPchan_kym : (s.setPchan k x).kym = s.kym := rfl
@[simp] theorem setPchan_orders : (s.setPchan k x).orders = s.orders := rfl
@[simp] theorem setPchan_ev : (s.setPchan k x).ev = s.ev := rfl
@[simp] theorem setPchan_host : (s.setPchan k x).host = s.host := rfl
@[simp] theorem setPchan_mem : (s.setPchan k x).mem = s.mem := rfl
@[simp] theorem setPchan_basin : (s.setPchan k x).basin = s.basin := rfl
@[simp] theorem setPchan_svc : (s.setPchan k x).svc = s.svc := rfl
@[simp] theorem setPchan_sealed : (s.setPchan k x).sealed = s.sealed := rfl
@[simp] theorem setPchan_xlat : (s.setPchan k x).xlat = s.xlat := rfl
@[simp] theorem setPchan_inf : (s.setPchan k x).inf = s.inf := rfl
@[simp] theorem setPchan_gath : (s.setPchan k x).gath = s.gath := rfl
@[simp] theorem setPchan_prog : (s.setPchan k x).prog = s.prog := rfl
@[simp] theorem setPchan_d2d : (s.setPchan k x).d2d = s.d2d := rfl
@[simp] theorem setPchan_link : (s.setPchan k x).link = s.link := rfl
@[simp] theorem setPchan_cohort : (s.setPchan k x).cohort = s.cohort := rfl
@[simp] theorem setPchan_power : (s.setPchan k x).power = s.power := rfl

end Setpchan

section Setsq
variable (s : State) (q : Nat) (x : Sequencer)

@[simp] theorem setSq_pending : (s.setSq q x).pending = s.pending := rfl
@[simp] theorem setSq_freeCtr : (s.setSq q x).freeCtr = s.freeCtr := rfl
@[simp] theorem setSq_out : (s.setSq q x).out = s.out := rfl
@[simp] theorem setSq_heldOut : (s.setSq q x).heldOut = s.heldOut := rfl
@[simp] theorem setSq_boot : (s.setSq q x).boot = s.boot := rfl
@[simp] theorem setSq_flash : (s.setSq q x).flash = s.flash := rfl
@[simp] theorem setSq_clk : (s.setSq q x).clk = s.clk := rfl
@[simp] theorem setSq_kym : (s.setSq q x).kym = s.kym := rfl
@[simp] theorem setSq_orders : (s.setSq q x).orders = s.orders := rfl
@[simp] theorem setSq_ev : (s.setSq q x).ev = s.ev := rfl
@[simp] theorem setSq_host : (s.setSq q x).host = s.host := rfl
@[simp] theorem setSq_mem : (s.setSq q x).mem = s.mem := rfl
@[simp] theorem setSq_basin : (s.setSq q x).basin = s.basin := rfl
@[simp] theorem setSq_svc : (s.setSq q x).svc = s.svc := rfl
@[simp] theorem setSq_sealed : (s.setSq q x).sealed = s.sealed := rfl
@[simp] theorem setSq_xlat : (s.setSq q x).xlat = s.xlat := rfl
@[simp] theorem setSq_pumps : (s.setSq q x).pumps = s.pumps := rfl
@[simp] theorem setSq_inf : (s.setSq q x).inf = s.inf := rfl
@[simp] theorem setSq_gath : (s.setSq q x).gath = s.gath := rfl
@[simp] theorem setSq_d2d : (s.setSq q x).d2d = s.d2d := rfl
@[simp] theorem setSq_link : (s.setSq q x).link = s.link := rfl
@[simp] theorem setSq_cohort : (s.setSq q x).cohort = s.cohort := rfl
@[simp] theorem setSq_power : (s.setSq q x).power = s.power := rfl

end Setsq

section Setisland
variable (s : State) (i : Nat) (k : IslandClock)

@[simp] theorem setIsland_pending : (s.setIsland i k).pending = s.pending := rfl
@[simp] theorem setIsland_freeCtr : (s.setIsland i k).freeCtr = s.freeCtr := rfl
@[simp] theorem setIsland_out : (s.setIsland i k).out = s.out := rfl
@[simp] theorem setIsland_heldOut : (s.setIsland i k).heldOut = s.heldOut := rfl
@[simp] theorem setIsland_boot : (s.setIsland i k).boot = s.boot := rfl
@[simp] theorem setIsland_flash : (s.setIsland i k).flash = s.flash := rfl
@[simp] theorem setIsland_kym : (s.setIsland i k).kym = s.kym := rfl
@[simp] theorem setIsland_orders : (s.setIsland i k).orders = s.orders := rfl
@[simp] theorem setIsland_ev : (s.setIsland i k).ev = s.ev := rfl
@[simp] theorem setIsland_host : (s.setIsland i k).host = s.host := rfl
@[simp] theorem setIsland_mem : (s.setIsland i k).mem = s.mem := rfl
@[simp] theorem setIsland_basin : (s.setIsland i k).basin = s.basin := rfl
@[simp] theorem setIsland_svc : (s.setIsland i k).svc = s.svc := rfl
@[simp] theorem setIsland_sealed : (s.setIsland i k).sealed = s.sealed := rfl
@[simp] theorem setIsland_xlat : (s.setIsland i k).xlat = s.xlat := rfl
@[simp] theorem setIsland_pumps : (s.setIsland i k).pumps = s.pumps := rfl
@[simp] theorem setIsland_inf : (s.setIsland i k).inf = s.inf := rfl
@[simp] theorem setIsland_gath : (s.setIsland i k).gath = s.gath := rfl
@[simp] theorem setIsland_prog : (s.setIsland i k).prog = s.prog := rfl
@[simp] theorem setIsland_d2d : (s.setIsland i k).d2d = s.d2d := rfl
@[simp] theorem setIsland_link : (s.setIsland i k).link = s.link := rfl
@[simp] theorem setIsland_cohort : (s.setIsland i k).cohort = s.cohort := rfl
@[simp] theorem setIsland_power : (s.setIsland i k).power = s.power := rfl

end Setisland

section Setjob
variable (s : State) (id : Nat) (j : XJob)

@[simp] theorem setJob_pending : (s.setJob id j).pending = s.pending := rfl
@[simp] theorem setJob_freeCtr : (s.setJob id j).freeCtr = s.freeCtr := rfl
@[simp] theorem setJob_out : (s.setJob id j).out = s.out := rfl
@[simp] theorem setJob_heldOut : (s.setJob id j).heldOut = s.heldOut := rfl
@[simp] theorem setJob_boot : (s.setJob id j).boot = s.boot := rfl
@[simp] theorem setJob_flash : (s.setJob id j).flash = s.flash := rfl
@[simp] theorem setJob_clk : (s.setJob id j).clk = s.clk := rfl
@[simp] theorem setJob_kym : (s.setJob id j).kym = s.kym := rfl
@[simp] theorem setJob_orders : (s.setJob id j).orders = s.orders := rfl
@[simp] theorem setJob_ev : (s.setJob id j).ev = s.ev := rfl
@[simp] theorem setJob_host : (s.setJob id j).host = s.host := rfl
@[simp] theorem setJob_mem : (s.setJob id j).mem = s.mem := rfl
@[simp] theorem setJob_basin : (s.setJob id j).basin = s.basin := rfl
@[simp] theorem setJob_svc : (s.setJob id j).svc = s.svc := rfl
@[simp] theorem setJob_sealed : (s.setJob id j).sealed = s.sealed := rfl
@[simp] theorem setJob_pumps : (s.setJob id j).pumps = s.pumps := rfl
@[simp] theorem setJob_inf : (s.setJob id j).inf = s.inf := rfl
@[simp] theorem setJob_gath : (s.setJob id j).gath = s.gath := rfl
@[simp] theorem setJob_prog : (s.setJob id j).prog = s.prog := rfl
@[simp] theorem setJob_d2d : (s.setJob id j).d2d = s.d2d := rfl
@[simp] theorem setJob_link : (s.setJob id j).link = s.link := rfl
@[simp] theorem setJob_cohort : (s.setJob id j).cohort = s.cohort := rfl
@[simp] theorem setJob_power : (s.setJob id j).power = s.power := rfl

end Setjob

section Raise
variable (s : State) (c v u : Nat) (d : List (Nat × Nat)) (r : Route) (i : Option Nat)

@[simp] theorem raise_pending : (s.raise c v u d r i).pending = s.pending := rfl
@[simp] theorem raise_freeCtr : (s.raise c v u d r i).freeCtr = s.freeCtr := rfl
@[simp] theorem raise_out : (s.raise c v u d r i).out = s.out := rfl
@[simp] theorem raise_heldOut : (s.raise c v u d r i).heldOut = s.heldOut := rfl
@[simp] theorem raise_boot : (s.raise c v u d r i).boot = s.boot := rfl
@[simp] theorem raise_flash : (s.raise c v u d r i).flash = s.flash := rfl
@[simp] theorem raise_clk : (s.raise c v u d r i).clk = s.clk := rfl
@[simp] theorem raise_kym : (s.raise c v u d r i).kym = s.kym := rfl
@[simp] theorem raise_orders : (s.raise c v u d r i).orders = s.orders := rfl
@[simp] theorem raise_host : (s.raise c v u d r i).host = s.host := rfl
@[simp] theorem raise_mem : (s.raise c v u d r i).mem = s.mem := rfl
@[simp] theorem raise_basin : (s.raise c v u d r i).basin = s.basin := rfl
@[simp] theorem raise_svc : (s.raise c v u d r i).svc = s.svc := rfl
@[simp] theorem raise_sealed : (s.raise c v u d r i).sealed = s.sealed := rfl
@[simp] theorem raise_xlat : (s.raise c v u d r i).xlat = s.xlat := rfl
@[simp] theorem raise_pumps : (s.raise c v u d r i).pumps = s.pumps := rfl
@[simp] theorem raise_inf : (s.raise c v u d r i).inf = s.inf := rfl
@[simp] theorem raise_gath : (s.raise c v u d r i).gath = s.gath := rfl
@[simp] theorem raise_prog : (s.raise c v u d r i).prog = s.prog := rfl
@[simp] theorem raise_d2d : (s.raise c v u d r i).d2d = s.d2d := rfl
@[simp] theorem raise_link : (s.raise c v u d r i).link = s.link := rfl
@[simp] theorem raise_cohort : (s.raise c v u d r i).cohort = s.cohort := rfl
@[simp] theorem raise_power : (s.raise c v u d r i).power = s.power := rfl

end Raise

end Sys2Proof.Machine.State
end

