-- ==== Sys2Proof/Laws/Kymal.lean ====
section
/-! SUPPORT. The Kymal mailbox: what a command that passes its checks comes to, and what writing a reply leaves alone. -/

namespace Sys2Proof.Machine

/-- A command that passes every check is carried out (R88). -/
theorem kymal_of_passes {c : Cmd} {k : KCmd} {s : State} (h : Passes c k s) :
    s.kymal c k = (taken s c k).carryOut c k := by
  obtain ⟨h1, h2, h3, h4⟩ := h
  simp only [taken] at h3 h4
  simp [State.kymal, State.runCmd, taken, h1, h2, h3, h4]

namespace State

theorem seqState_setSeq (s : State) (p q : Path) (x : SeqState) :
    (s.setSeq p x).seqState q = if q.position = p.position then x else s.seqState q := by
  by_cases h : q.position = p.position
  · simp [seqState, setSeq, h]
  · simp [seqState, setSeq, h]

theorem takeSeq_head (s : State) (p : Path) (n : BitVec 32) (o : Nat) :
    ((s.takeSeq p n o).seqState p).history.head? = some ⟨n, o, none, 0⟩ := by
  simp [takeSeq, seqState_setSeq]

theorem noteStatus_head {s : State} {p : Path} {n : BitVec 32} {o st d : Nat}
    (h : (s.seqState p).history.head? = some ⟨n, o, none, 0⟩) :
    ((s.noteStatus p n st d).seqState p).history.head? = some ⟨n, o, some st, d⟩ := by
  simp [noteStatus, seqState_setSeq, h]

end State

theorem Part.kept_refl (s : State) (p : Part) : p.kept s s := by cases p <;> simp [Part.kept]

theorem Part.kept_trans {s t u : State} {p : Part} (h : p.kept s t) (g : p.kept t u) : p.kept s u := by
  cases p <;> simp_all [Part.kept]

theorem Only.refl (ps : List Part) (s : State) : Only ps s s := ⟨rfl, fun p _ => p.kept_refl s⟩

theorem Only.trans {ps qs : List Part} {s t u : State} (h : Only ps s t) (g : Only qs t u) : Only (ps ++ qs) s u :=
  ⟨g.1.trans h.1, fun p hp => by
    rw [List.mem_append, not_or] at hp
    exact Part.kept_trans (h.2 p hp.1) (g.2 p hp.2)⟩

theorem Only.mono {ps qs : List Part} {s t : State} (h : Only ps s t) (hs : ∀ p ∈ ps, p ∈ qs) : Only qs s t :=
  ⟨h.1, fun p hp => h.2 p fun hm => hp (hs p hm)⟩

/-- Two stretches that keep all but the same parts. -/
theorem Only.comp {ps : List Part} {s t u : State} (h : Only ps s t) (g : Only ps t u) : Only ps s u :=
  ⟨g.1.trans h.1, fun p hp => Part.kept_trans (h.2 p hp) (g.2 p hp)⟩

namespace State

theorem hostFn_setHostFn (s : State) (f g : Nat) (h : HostFn) :
    (s.setHostFn f h).hostFn g = if g = f then h else s.hostFn g := by
  by_cases e : g = f <;> simp [hostFn, setHostFn, e]

theorem kymFn_setKymFn (s : State) (f g : Nat) (k : KymFn) :
    (s.setKymFn f k).kymFn g = if g = f then k else s.kymFn g := by
  by_cases e : g = f <;> simp [kymFn, setKymFn, e]

theorem pair?_setPair (s : State) (f q g r : Nat) (p : QPair) :
    (s.setPair f q p).pair? g r = if 4 * g + r = 4 * f + q then some p else s.pair? g r := by
  by_cases e : 4 * g + r = 4 * f + q <;> simp [pair?, setPair, e]

theorem raiseVector_only (s : State) (f v : Nat) : Only [.out, .msix] s (s.raiseVector f v) := by
  unfold raiseVector
  dsimp only
  split
  · exact ⟨rfl, fun p hp => by
      cases p <;> first
        | (simp at hp; done) | exact rfl | exact fun _ => rfl | exact fun _ _ => rfl | exact ⟨fun _ => rfl, rfl⟩⟩
  · refine ⟨rfl, fun p hp => ?_⟩
    cases p <;> first
      | (simp at hp; done) | exact rfl | exact fun _ => rfl | exact fun _ _ => rfl | skip
    refine ⟨fun g => ?_, rfl⟩
    rw [hostFn_setHostFn]
    split
    · next h => subst h; rfl
    · rfl

/-- Everything but the reply's own parts is kept by writing it. -/
theorem sendReply_only (s : State) (r : Reply) : Only [.out, .msix, .urgent, .rings, .held] s (s.sendReply r) := by
  have held : Only [.out, .msix, .urgent, .rings, .held] s (s.holdReply r) :=
    ⟨rfl, fun p hp => by
      cases p <;> first
        | (simp at hp; done) | exact rfl | exact fun _ => rfl | exact fun _ _ => rfl | exact ⟨fun _ => rfl, rfl⟩⟩
  unfold sendReply
  split
  · exact held
  split
  · exact ⟨rfl, fun p hp => by
      cases p <;> first
        | (simp at hp; done) | exact rfl | exact fun _ => rfl | exact fun _ _ => rfl | exact ⟨fun _ => rfl, rfl⟩⟩
  · next f hr =>
    refine ⟨rfl, fun p hp => ?_⟩
    cases p <;> first
      | (simp at hp; done) | exact rfl | exact fun _ _ => rfl | exact ⟨fun _ => rfl, rfl⟩ | skip
    case fns =>
      intro g
      dsimp only
      rw [show ∀ (u : State) o, (u.emit o).kymFn g = u.kymFn g from fun _ _ => rfl, kymFn_setKymFn]
      split
      · next h => subst h; rfl
      · rfl
  · next f q hr =>
    split
    · next p hp =>
      split
      · exact held
      · refine Only.mono (Only.trans (ps := [.out, .rings]) ?_ (raiseVector_only _ _ _)) (by simp)
        refine ⟨rfl, fun x hx => ?_⟩
        cases x <;> first
          | (simp at hx; done) | exact rfl | exact fun _ => rfl | exact ⟨fun _ => rfl, rfl⟩ | skip
        case pairs =>
          intro g r
          rw [show ∀ (u : State) o, (u.emit o).pair? g r = u.pair? g r from fun _ _ => rfl, pair?_setPair]
          split
          · next h =>
            have : s.pair? g r = some p := by rw [← hp]; simp [pair?, h]
            rw [this]; rfl
          · rfl
    · exact held

theorem sendReply_seqs (s : State) (r : Reply) : (s.sendReply r).kym.seqs = s.kym.seqs :=
  (sendReply_only s r).2 .seqs (by simp)

theorem sendReply_gens (s : State) (r : Reply) (x : Nat) : (s.sendReply r).generation x = s.generation x := by
  have h : gensPart _ = gensPart _ := (sendReply_only s r).2 .gens (by simp)
  simp only [gensPart, Prod.mk.injEq] at h
  simp [generation, h.1, h.2]

theorem sent_emit (s : State) (o : Out) : Sent o (s.emit o) := by
  unfold Sent emit
  dsimp only
  split <;> simp

theorem sent_emit_of {s : State} {o : Out} (x : Out) (h : Sent o s) : Sent o (s.emit x) := by
  unfold Sent emit at *
  dsimp only
  split <;> rcases h with h | h <;> simp [h]

theorem raiseVector_sent {s : State} {o : Out} (f v : Nat) (h : Sent o s) : Sent o (s.raiseVector f v) := by
  unfold raiseVector; dsimp only; split
  · exact sent_emit_of _ h
  · simpa [Sent] using h

/-- A reply that is sent is written, or waits. -/
theorem delivered_sendReply (s : State) (r : Reply) (h : r.final = true ∨ r.path.isUrgent = false) :
    Delivered r (s.sendReply r) := by
  unfold sendReply Delivered
  split
  · simp [holdReply]
  split
  · next hr => rw [hr]; exact .inr ⟨0, 0, true, sent_emit _ _⟩
  · next f hr =>
    refine .inr ⟨0, 0, true, ?_⟩
    have hf : { r with final := true } = r := by
      rcases h with h | h
      · rw [← h]
      · simp [hr, Path.isUrgent] at h
    rw [hf]; exact sent_emit _ _
  · next f q hr =>
    split
    · next p hp =>
      split
      · simp [holdReply]
      · exact .inr ⟨p.ridx, p.head, p.phase, raiseVector_sent _ _ (sent_emit _ _)⟩
    · simp [holdReply]

theorem noteStatus_only (s : State) (p : Path) (n : BitVec 32) (st d : Nat) : Only [.seqs] s (s.noteStatus p n st d) :=
  ⟨rfl, fun x hx => by
    cases x <;> first
      | (simp at hx; done) | exact rfl | exact fun _ => rfl | exact fun _ _ => rfl | exact ⟨fun _ => rfl, rfl⟩⟩

theorem takeSeq_only (s : State) (p : Path) (n : BitVec 32) (o : Nat) : Only [.seqs] s (s.takeSeq p n o) :=
  ⟨rfl, fun x hx => by
    cases x <;> first
      | (simp at hx; done) | exact rfl | exact fun _ => rfl | exact fun _ _ => rfl | exact ⟨fun _ => rfl, rfl⟩⟩

theorem emit_only (s : State) (o : Out) : Only [.out] s (s.emit o) :=
  ⟨rfl, fun x hx => by
    cases x <;> first
      | (simp at hx; done) | exact rfl | exact fun _ => rfl | exact fun _ _ => rfl | exact ⟨fun _ => rfl, rfl⟩⟩

theorem grantLease_only (s : State) (ref h : Nat) (x : Bool) : Only [.leases] s (s.grantLease ref h x) :=
  ⟨rfl, fun x hx => by
    cases x <;> first
      | (simp at hx; done) | exact rfl | exact fun _ => rfl | exact fun _ _ => rfl | exact ⟨fun _ => rfl, rfl⟩⟩

theorem bumpGen_only (s : State) (ref : Nat) : Only [.gens] s (s.bumpGen ref) :=
  ⟨rfl, fun x hx => by
    cases x <;> first
      | (simp at hx; done) | exact rfl | exact fun _ => rfl | exact fun _ _ => rfl | exact ⟨fun _ => rfl, rfl⟩⟩

theorem raise_only (s : State) (code sev unit : Nat) (fs : List (Nat × Nat)) (r : Route) (i : Option Nat) :
    Only [.ev] s (s.raise code sev unit fs r i) :=
  ⟨rfl, fun x hx => by
    cases x <;> first
      | (simp at hx; done) | exact rfl | exact fun _ => rfl | exact fun _ _ => rfl | exact ⟨fun _ => rfl, rfl⟩⟩

theorem finalReply_only (s : State) (r : Reply) : Only replyParts s (s.finalReply r) :=
  Only.mono (Only.trans (noteStatus_only s r.path r.seq r.status r.detail) (sendReply_only _ r)) (by simp [replyParts])

theorem sendData_only (s : State) (p : Path) (d : Bytes) : Only [.out] s (s.sendData p d) := by
  unfold sendData; split
  · exact Only.refl _ s
  · exact emit_only s _

theorem finalReply_head {s : State} {p : Path} {n : BitVec 32} {o : Nat} (r : Reply)
    (h : (s.seqState p).history.head? = some ⟨n, o, none, 0⟩) (hp : r.path = p) (hn : r.seq = n) :
    ((s.finalReply r).seqState p).history.head? = some ⟨n, o, some r.status, r.detail⟩ := by
  subst hp hn
  unfold finalReply seqState
  rw [sendReply_seqs]
  exact noteStatus_head h

/-- An urgent command that is taken marks its mailbox alone. -/
theorem holdUrgent_only (s : State) (p : Path) : Only [.urgent] s (s.holdUrgent p) := by
  unfold holdUrgent
  split
  · next f =>
    refine ⟨rfl, fun x hx => ?_⟩
    cases x <;> first
      | (simp at hx; done) | exact rfl | exact fun _ _ => rfl | exact ⟨fun _ => rfl, rfl⟩ | skip
    case msix => exact fun _ => rfl
    case fns =>
      intro g
      rw [kymFn_setKymFn]
      split
      · next h => subst h; rfl
      · rfl
  · exact Only.refl _ s
  · exact Only.refl _ s

/-- The generation of a resource that can still count moves by one. -/
theorem bumpsGen_bumpGen {s : State} {ref : Nat} (h : s.kym.genCount.get 1 ref < genLimit) :
    BumpsGen ref s (s.bumpGen ref) := by
  intro r
  by_cases e : r = ref
  · subst e; simp [bumpGen, generation, satInc, h]; omega
  · simp [bumpGen, generation, e]

end State

theorem or_none {α : Type} {a b : Option α} (h : a.or b = none) : a = none ∧ b = none := by
  cases a <;> simp_all

/-- What passing means, check by check (Table 3-3). -/
structure Checks (c : Cmd) (k : KCmd) (s : State) : Prop where
  hello : helloCheck s c k = none
  field : fieldCheck s c k = none
  master : masterCheck s c k = none
  device : deviceCheck s c = none
  own6 : c.check6 s k = none
  lease : leaseCheck s c k = none
  own7 : c.check7 s k = none
  guard : guardCheck s c k = none
  busy : busyCheck s c k = none
  own9 : c.check9 s k = none
  own10 : c.check10 s k = none
  capacity : capacityCheck s c k = none
  own11 : c.check11 s k = none

theorem judge_none {c : Cmd} {k : KCmd} {s : State} (h : judge c k s = none) : Checks c k s := by
  unfold judge at h
  obtain ⟨h, h11'⟩ := or_none h
  obtain ⟨h, h11⟩ := or_none h
  obtain ⟨h, h10⟩ := or_none h
  obtain ⟨h, h9'⟩ := or_none h
  obtain ⟨h, h9⟩ := or_none h
  obtain ⟨h, h8⟩ := or_none h
  obtain ⟨h, h7'⟩ := or_none h
  obtain ⟨h, h7⟩ := or_none h
  obtain ⟨h, h6'⟩ := or_none h
  obtain ⟨h, h6⟩ := or_none h
  obtain ⟨h, h5⟩ := or_none h
  obtain ⟨h2, h4⟩ := or_none h
  exact ⟨h2, h4, h5, h6, h6', h7, h7', h8, h9, h9', h10, h11, h11'⟩

theorem Passes.checks {c : Cmd} {k : KCmd} {s : State} (h : Passes c k s) : Checks c k (taken s c k) := judge_none h.2.2.1

/-- A command that changes its resource finds the generation below its limit (R1023). -/
theorem Passes.genRoom {c : Cmd} {k : KCmd} {s : State} (h : Passes c k s) (hc : c.changes = true) :
    (taken s c k).kym.genCount.get 1 (c.ref (taken s c k) k) < State.genLimit := by
  have := h.checks.capacity
  unfold capacityCheck at this
  dsimp only at this
  split at this
  · cases this
  · next hn => simp [hc] at hn; omega

/-- The state once an effect has taken place, its leases and its generations with it. -/
def afterEffect (c : Cmd) (k : KCmd) (s : State) (e : Effect) : State :=
  let target := e.created.getD (c.ref s k)
  let s1 := if e.created.isSome then e.state.grantLease target k.master true else e.state
  (c.also s k).foldl State.bumpGen (if c.changes then s1.bumpGen target else s1)

/-- Counting generations changes nothing else. -/
theorem bumpGens_only (l : List Nat) (s : State) : Only [.gens] s (l.foldl State.bumpGen s) := by
  induction l generalizing s with
  | nil => exact Only.refl _ s
  | cons r t ih => exact Only.comp (State.bumpGen_only s r) (ih _)

/-- An effect with its leases and generations leaves the rest of its own state as it is. -/
theorem afterEffect_only (c : Cmd) (k : KCmd) (s : State) (e : Effect) :
    Only [.leases, .gens] e.state (afterEffect c k s e) := by
  have h1 : Only [.leases] e.state (if e.created.isSome then e.state.grantLease (e.created.getD (c.ref s k)) k.master true else e.state) := by
    split
    · exact State.grantLease_only _ _ _ _
    · exact Only.refl _ _
  have h2 : ∀ u : State, Only [.gens] u (if c.changes then u.bumpGen (e.created.getD (c.ref s k)) else u) := fun u => by
    split
    · exact State.bumpGen_only _ _
    · exact Only.refl _ _
  exact Only.mono (Only.trans h1 (Only.comp (h2 _) (bumpGens_only _ _))) (by simp)

/-- A mode S command that passes: its effect, its final reply, nothing else (R88). -/
theorem Passes.ok {c : Cmd} {k : KCmd} {s : State} {e : Effect} (h : Passes c k s) (he : c.effect (taken s c k) k = e)
    (hf : e.fail = none) (ha : c.accepted = false) (hd : e.deferred = false) (hs : e.silent = false)
    (hh : (e.state.seqState k.path).history.head? = some ⟨k.seq, c.opcode, none, 0⟩) :
    Only replyParts (afterEffect c k (taken s c k) e) (s.kymal c k)
      ∧ DoneOk c k (s.kymal c k)
          (if c.primary = .res then (s.kymal c k).generation (e.created.getD (c.ref (taken s c k) k)) else 0) e.result := by
  rw [kymal_of_passes h]
  let okReply : Nat → Reply := fun g =>
    { path := k.path, opcode := c.opcode, seq := k.seq, status := stOk, detail := e.detail, gen := g, result := e.result }
  have hk : (taken s c k).carryOut c k = ((afterEffect c k (taken s c k) e).finalReply
      { path := k.path, opcode := c.opcode, seq := k.seq, status := stOk, detail := e.detail,
        gen := replyGen (afterEffect c k (taken s c k) e) c k
          (some (e.created.getD (c.ref (taken s c k) k)) |>.filter fun _ => c.primary = .res),
        result := e.result }).sendData k.path e.data := by
    unfold State.carryOut afterEffect
    simp [he, hf, ha, hd, hs]
  rw [hk]
  generalize hu : afterEffect c k (taken s c k) e = u
  generalize hr : replyGen u c k (some (e.created.getD (c.ref (taken s c k) k)) |>.filter fun _ => c.primary = .res) = g
  have hhead : (u.seqState k.path).history.head? = some ⟨k.seq, c.opcode, none, 0⟩ := by
    rw [← hh, ← hu]; unfold State.seqState
    rw [show (afterEffect c k (taken s c k) e).kym.seqs = e.state.kym.seqs from (afterEffect_only c k _ e).2 .seqs (by simp)]
  have hdata : ∀ (v : State), (v.sendData k.path e.data).kym = v.kym := fun v => by unfold State.sendData; split <;> rfl
  refine ⟨Only.mono (Only.trans (State.finalReply_only u _) (State.sendData_only _ _ _)) (by simp [replyParts]), e.detail, ?_, ?_⟩
  · have := State.finalReply_head (s := u) (okReply g) hhead rfl rfl
    rw [← this]; unfold State.seqState; rw [hdata]
  · have hg : (if c.primary = .res then ((u.finalReply (okReply g)).sendData k.path e.data).generation
          (e.created.getD (c.ref (taken s c k) k)) else 0) = g := by
      rw [← hr]
      unfold State.generation; rw [hdata]
      by_cases hp : c.primary = .res
      · simp only [hp, if_true, Option.filter, decide_true, replyGen]
        exact State.sendReply_gens _ _ _
      · simp [hp, replyGen, Option.filter]
    rw [hg]
    have := State.delivered_sendReply (u.noteStatus k.path k.seq stOk e.detail) (okReply g) (.inl rfl)
    unfold Delivered at this ⊢
    rw [hdata]
    rcases this with this | ⟨i, x, y, this⟩
    · exact .inl this
    · refine .inr ⟨i, x, y, ?_⟩
      unfold State.sendData; split
      · exact this
      · exact State.sent_emit_of _ this

/-- A command that is accepted: its effect, its place among the running commands, and ST_ACCEPTED (R91, R116). -/
theorem Passes.accept {c : Cmd} {k : KCmd} {s : State} {e : Effect} (h : Passes c k s)
    (he : c.effect (taken s c k) k = e) (hf : e.fail = none) (ha : (c.accepted || e.deferred) = true)
    (hs : e.silent = false) (hh : (e.state.seqState k.path).history.head? = some ⟨k.seq, c.opcode, none, 0⟩) :
    Only (.running :: replyParts) (afterEffect c k (taken s c k) e) (s.kymal c k)
      ∧ (s.kymal c k).kym.running
          = e.state.kym.running ++ [{ opcode := c.opcode, cmd := k, ref := e.created.getD (c.ref (taken s c k) k), outcome := e.outcome }]
      ∧ Accepted c k (e.created.getD (c.ref (taken s c k) k)) (s.kymal c k) := by
  rw [kymal_of_passes h]
  generalize hu : afterEffect c k (taken s c k) e = u
  generalize ht : e.created.getD (c.ref (taken s c k) k) = target
  let v : State := { u with kym := { u.kym with running := u.kym.running ++
    [{ opcode := c.opcode, cmd := k, ref := target, outcome := e.outcome }] } }
  let r : Reply := { path := k.path, opcode := c.opcode, seq := k.seq, status := stAccepted, final := false, gen := v.generation target }
  have hk : (taken s c k).carryOut c k = if k.path.isUrgent then v.holdUrgent k.path else v.sendReply r := by
    unfold State.carryOut
    simp only [he, hf, hs, ha, Bool.or_false, if_true]
    simp only [v, r, ← hu, afterEffect, ht]
  have hafter := afterEffect_only c k (taken s c k) e
  rw [hu] at hafter
  have hrun : u.kym.running = e.state.kym.running := hafter.2 .running (by simp)
  have hhead : (v.seqState k.path).history.head? = some ⟨k.seq, c.opcode, none, 0⟩ := by
    rw [← hh]; simp only [v]; unfold State.seqState
    rw [show u.kym.seqs = e.state.kym.seqs from hafter.2 .seqs (by simp)]
  have huv : Only [.running] u v := ⟨rfl, fun x hx => by
    cases x <;> first
      | (simp at hx; done) | exact rfl | exact fun _ => rfl | exact fun _ _ => rfl | exact ⟨fun _ => rfl, rfl⟩⟩
  have hv : v.kym.running = e.state.kym.running ++ [{ opcode := c.opcode, cmd := k, ref := target, outcome := e.outcome }] := by
    simp only [v, hrun]
  rw [hk]
  split
  · next hurg =>
    have ho := State.holdUrgent_only v k.path
    have hr : (v.holdUrgent k.path).kym.running = v.kym.running := ho.2 .running (by simp)
    refine ⟨Only.mono (Only.trans huv ho) (by simp [replyParts]), by rw [hr, hv], ?_, ⟨e.outcome, by rw [hr, hv]; simp⟩,
      fun hn => by simp [hurg] at hn⟩
    rw [← hhead]; unfold State.seqState
    rw [show (v.holdUrgent k.path).kym.seqs = v.kym.seqs from ho.2 .seqs (by simp)]
  · next hurg =>
    have ho := State.sendReply_only v r
    have hr : (v.sendReply r).kym.running = v.kym.running := ho.2 .running (by simp)
    refine ⟨Only.mono (Only.trans huv ho) (by simp [replyParts]), by rw [hr, hv], ?_, ⟨e.outcome, by rw [hr, hv]; simp⟩, fun _ => ?_⟩
    · rw [← hhead]; unfold State.seqState; rw [State.sendReply_seqs]
    · rw [State.sendReply_gens]
      exact State.delivered_sendReply v r (.inr (by simpa using hurg))

end Sys2Proof.Machine
end

