-- ==== Sys2Proof/Laws/Link.lean ====
section
/-! SUPPORT. What a lane owes falls within a superframe by its slack field alone (R758). -/

namespace Sys2Proof.Machine

theorem sendSymbol_debt_le (z : LinkLane × List Nat) (level : Nat) : z.1.debt ≤ (sendSymbol z level).1.debt := by
  simp only [sendSymbol, laneCount]
  split <;> simp <;> split <;> simp

theorem sendSymbols_debt_le (levels : List Nat) :
    ∀ z : LinkLane × List Nat, z.1.debt ≤ (levels.foldl sendSymbol z).1.debt := by
  induction levels with
  | nil => exact fun z => Nat.le_refl _
  | cons a l ih => exact fun z => Nat.le_trans (sendSymbol_debt_le z a) (ih (sendSymbol z a))

theorem sendSlack_debt_ge (z : LinkLane × List Nat) : z.1.debt - 4 ≤ (sendSlack z).1.debt :=
  sendSymbols_debt_le (([0, 3, 0, 3] : List Nat).take (4 - z.1.debt)) ({ z.1 with debt := z.1.debt - 4 }, z.2)

/-- A superframe pays back at most the four symbols of its slack field. -/
theorem sendFrame_debt_ge (x : LinkLane) (symbols : List Nat) : x.debt - 4 ≤ (sendFrame x symbols).1.debt := by
  unfold sendFrame
  generalize levelsOf x.reg symbols = out
  exact Nat.le_trans (Nat.sub_le_sub_right (sendSymbols_debt_le out.2 ({ x with reg := out.1 }, [])) 4) (sendSlack_debt_ge _)

end Sys2Proof.Machine
end

