-- ==== Sys2Proof/Tests/Slice0.lean ====
section
/-! SUPPORT. Tests: ill-formed operands refused, words written out from the encodings, and for each statement with
hypotheses a state and operands that meet them. -/

open Sys2Proof Sys2Proof.Machine

namespace Sys2Proof.Tests

-- One theorem at a time: the checks of many small states side by side would need a thread each.
set_option Elab.async false

/-! ### Small states -/

/-- A device that has booted and is UNCONFIGURED, at 1 ms, with the PF's admin pair and its version negotiated. -/
def ready : State :=
  { boot := { step := 16, coldDone := 16, device := .unconfigured, config := .full, smbusUp := true }
    clk := { wardenLocked := true, tbase := 1000000 }
    kym := { fns := ⟨[(0, { version := some 0x0302 })]⟩, pairs := ⟨[(0, {})]⟩ }
    ev := { logOpen := true }
    sealed := { seed := some 0, reservedKey := some 0 } }

/-- The same in SERVICE. -/
def serving : State := { ready with boot := { ready.boot with device := .service } }

/-- A command of the PF's admin pair: payload fields by offset, width and value. -/
def cmd (fs : List (Nat × Nat × Nat)) (flags : BitVec 16 := 0) : KCmd :=
  { path := .queue 0 0, flags := flags, seq := 0
    payload := fs.foldl (fun b x => overlay b (x.1 - 16) (toLE x.2.1 x.2.2)) (List.replicate 112 0) }

/-- The PF holds a resource's exclusive lease. -/
def own (refs : List Nat) (s : State) : State :=
  { s with kym := { s.kym with leases := refs.map fun r => ⟨r, 0, true⟩ } }

/-- A near polder of one granule whose first piece is the first of channel 0. -/
def nearPolder : Polder := { size := 1, granule := 2, place := ⟨[(0, 0)]⟩ }

/-- A board polder whose first piece is the first of board channel 0. -/
def boardPolder : Polder := { tier := 1, interleave := 4, granule := 1, size := 3, place := ⟨[(0, 128 * 0x1000)]⟩ }

def withPolders (ps : List (Nat × Polder)) (s : State) : State :=
  { s with mem := { s.mem with polders := ⟨ps⟩ }, sealed := { s.sealed with slots := ⟨[(0, 1), (1, 2)]⟩ } }

/-- A caddy that declares one cluster, one sequencer and an envelope of 8 tokens. -/
def smallCaddy : Caddy :=
  { header := List.replicate 128 0 ++ toLE 4 12, manifest := toLE 2 1 ++ toLE 2 1 ++ toLE 4 0 ++ toLE 4 8 }

/-- What it is bound to: cluster 0, sequencer 0. -/
def smallBinding : Binding := { clusters := [0], seqs := [0], chans := [], quarters := [], works := [], binder := 0 }

def withCaddy (c : Caddy) (s : State) : State := { s with inf := { s.inf with caddies := ⟨[(0, c)]⟩ } }

/-- Space 0 of the PF with one device-page request that nobody waits for. -/
def spaceState : State :=
  own [astRef 0, 0x1800] (withPolders [(0, nearPolder)] { serving with
    xlat := { spaces := ⟨[(0, ⟨0, 0, false, 0⟩)]⟩, drv := [{ id := 7, ast := 0, page := 0x800000000, write := false, reduce := false }] } })

/-- Channel 15 of pump engine 31 is open to the PF. -/
def openChan (c : PumpChan) (s : State) : State := s.setPchan 511 { c with kind := .host }

/-- Port 47 is ACTIVE and in service. -/
def withPort (p : LinkPort) (s : State) : State :=
  { s.setLport 47 { p with state := portActive } with svc := { s.svc with states := s.svc.states.set (portUnit 47) .inService } }

/-- A pump channel with one descriptor in a state to act on. -/
def pumpState (c : PumpChan) : State := openChan c spaceState

/-- Boot at a step, its predecessors done on this cold boot. -/
def bootAt (n : Nat) : State :=
  { ready with boot := { ready.boot with device := .booting, step := n, coldDone := n }, d2d := { dies := ⟨(List.range 4).map fun d => (d, { ready := true, checked := true })⟩ } }

/-- The near polder with its first page written, wrong symbols as given, at a far time. -/
def paged (errs : List Nat) (p : Polder := nearPolder) : State :=
  let s := withPolders [(0, p)] serving
  { s with mem := { s.mem with pages := ⟨[(0, { errs := errs })]⟩, cells := [(0, 0xA5), (31, 1)] }, clk := { s.clk with tbase := 2 ^ 62 } }

/-- Cluster 255's port in a state to act on. -/
def clusterState (p : ClusterPort) : State := (withPolders [(0, nearPolder)] serving).setPort 255 p

/-- A running program of caddy 0: cluster 0, sequencer 0, pump channel 511, quarter 0, work polder 0; its sequencer as given,
which starts the instruction `i`. -/
def programState (q : Sequencer) (i : Nat := 0) : State :=
  withCaddy { smallCaddy with state := 4, program := 1, bound := some ⟨[0], [0], [511], [0], [0], 0⟩ } { paged [] with
    prog := { seqs := ⟨[(0, { q with state := .running, caddy := some 0, program := 1, store := ⟨[(0, BitVec.ofNat 64 i)]⟩ })]⟩ }
    pumps := { chans := ⟨[(511, { kind := .program 0 })]⟩ } }


/-- A next state of which a check holds. -/
def gives (o : Host.Outcome State Fault Refusal) (p : State → Bool) : Bool := match o with | .next s => p s | _ => false
/-! ### Session, leases, standing orders, logs -/

theorem test_failed_check_hyps :
    (ready.takesFrom (cmd [(16, 4, 0x400), (20, 1, 2)]) = true ∧ seqCheck ready 0x0105 (cmd [(16, 4, 0x400), (20, 1, 2)]) = none
    ∧ judge leaseAcquireCmd (cmd [(16, 4, 0x400), (20, 1, 2)]) (taken ready leaseAcquireCmd (cmd [(16, 4, 0x400), (20, 1, 2)]))
      = some { status := stBadField, detail := 20 }
    ∧ ready.takesFrom (cmd [(16, 1, 65)]) = true ∧ seqCheck ready 0x1801 (cmd [(16, 1, 65)]) = none
    ∧ (judge cohortConfigCmd (cmd [(16, 1, 65)]) (taken ready cohortConfigCmd (cmd [(16, 1, 65)]))).isSome = true)
    ∧ ∀ u, leaseAcquireCmd.onBad u (cmd [(16, 4, 0x400), (20, 1, 2)]) = u := ⟨by decide +kernel, fun _ => rfl⟩

theorem test_session_hyps :
    Passes helloCmd (cmd [(16, 2, 0x0302)]) ready
    ∧ Passes queueCreateCmd (cmd [(16, 1, 3), (17, 1, 4), (18, 1, 12)]) ready
    ∧ (cmd [(16, 1, 3), (17, 1, 4), (18, 1, 12)]).path ≠ .queue 0 3
    ∧ Passes queueDeleteCmd (cmd [(16, 1, 3)]) (ready.setPair 0 3 {})
    ∧ Passes queueResetCmd (cmd [(16, 1, 3)]) (ready.setPair 0 3 {}) ∧ (ready.setPair 0 3 {}).pair? 0 3 = some {} := by
  decide +kernel

theorem test_lease_hyps :
    Passes leaseAcquireCmd (cmd [(16, 4, 0x400), (20, 1, 1)]) ready
    ∧ Passes leaseReleaseCmd (cmd [(16, 4, 0x400)]) (own [0x400] ready)
    ∧ Passes leaseBreakCmd (cmd [(16, 4, 0x400), (20, 1, 1)]) (ready.grantLease 0x400 5 true)
    ∧ (ready.grantLease 0x400 5 true).breakWaits 0x400 0 = false
    ∧ Passes resourceAssignCmd (cmd [(16, 4, 0x400), (20, 2, 127)]) ready := by decide +kernel

/-- A break that waits: function 5 holds the slice and runs a command on it. -/
theorem test_lease_break_waits_hyps :
    let s := ready.grantLease 0x400 5 true
    let s := { s with kym := { s.kym with running := [{ opcode := 0x1101, cmd := { path := .queue 5 0, seq := 0, payload := [] }, ref := 0x400 }] } }
    Passes leaseBreakCmd (cmd [(16, 4, 0x400)]) s ∧ s.breakWaits 0x400 0 = true := by decide +kernel

theorem test_order_hyps :
    let r := orderRef 4 0x0C00
    Passes orderArmCmd (cmd [(16, 4, r), (24, 4, 1), (28, 2, 1), (30, 2, 168)]) (own [r] ready)
    ∧ Passes orderClearCmd (cmd [(16, 4, r)]) (own [r] { ready with orders := ⟨[(refId r, { armed := true })]⟩ })
    ∧ Passes orderQueryCmd (cmd [(16, 4, r)]) ready := by decide +kernel

theorem test_log_hyps :
    Passes eventqConfigCmd (cmd [(16, 1, 1), (17, 1, 16), (18, 2, 2047), (24, 8, 0x1000)]) ready
    ∧ Passes logReadCmd (cmd [(16, 4, 1), (112, 8, 8), (120, 4, 32)] 1) { ready with ev := { ready.ev with logOpen := true } }
    ∧ Passes countersReadCmd (cmd [(16, 2, 0xFFFF), (112, 8, 8), (120, 4, 136)] 1) ready := by decide +kernel

/-! ### Polders, sluices, Basin -/

theorem test_polder_create_hyps :
    Passes polderCreateCmd (cmd [(18, 1, 1), (19, 1, 4), (24, 4, 3)])
      (withPolders [] { ready with mem := { trained := List.range 12 } }) := by decide +kernel

theorem test_polder_hyps :
    let s := own [0x3400] (withPolders [(0, nearPolder)] ready)
    let b := own [0x3400] (withPolders [(0, { boardPolder with size := 6 })] ready)
    s.polder? 0 = some nearPolder ∧ s.isKeyless nearPolder = false
    ∧ Passes polderFreeCmd (cmd [(16, 2, 0x3400)]) s
    ∧ Passes polderResizeCmd (cmd [(16, 2, 0x3400), (24, 4, 3)]) b ∧ 3 < 6
    ∧ Passes polderResizeCmd (cmd [(16, 2, 0x3400), (24, 4, 1)]) s
    ∧ Passes polderRestrengthCmd (cmd [(16, 2, 0x3400), (21, 1, 3)]) s
    ∧ Passes polderRekeyCmd (cmd [(16, 2, 0x3400), (23, 1, 1)]) s
    ∧ Passes polderSetSluiceCmd (cmd [(16, 2, 0x3400), (20, 1, 0xFF)]) s := by decide +kernel

theorem test_sluice_and_basin_cmd_hyps :
    let s := own [0x3400, 0x400, sluiceRef 63] (withPolders [(0, nearPolder)] ready)
    Passes sluiceConfigCmd (cmd [(16, 4, sluiceRef 63), (24, 4, 1), (28, 4, 1)]) s
    ∧ Passes sluiceConfigCmd (cmd [(16, 4, sluiceRef 63)]) s
    ∧ Passes basinPartitionCmd (cmd [(16, 2, 0x400), (18, 1, 15), (19, 1, 1)]) s
    ∧ quartersToSwitch (s.slice 0) 15 1 ≠ []
    ∧ Passes basinQuotaCmd (cmd [(16, 2, 0x3400), (24, 4, 1)]) s
    ∧ Passes basinFlushCmd (cmd [(16, 2, 0x3400), (18, 1, 1)]) s
    ∧ Passes basinPartitionCmd (cmd [(16, 2, 0x400), (18, 1, 15)]) s ∧ quartersToSwitch (s.slice 0) 15 0 = [] := by decide +kernel

theorem test_partition_end_hyps :
    let r : Running := { opcode := 0x1101, cmd := cmd [(16, 2, 0x400), (18, 1, 8), (19, 1, 1)], ref := 0x400 }
    r.outcome = none ∧ (basinPartitionCmd.finish ready r {}).isSome = true := by decide +kernel

/-! ### Address spaces, pump channels, caddies, programs -/

theorem test_space_cmd_hyps :
    Passes spaceCreateCmd (cmd [(16, 2, 4095), (20, 4, 0xFFFFF)]) spaceState
    ∧ Passes spaceDestroyCmd (cmd [(16, 2, 0)]) { spaceState with xlat := { spaceState.xlat with drv := [] } }
    ∧ Passes invalRangeCmd (cmd [(32, 8, 4096)]) spaceState ∧ Passes invalTagCmd (cmd []) spaceState
    ∧ Passes accessCountSetCmd (cmd [(18, 1, 1), (24, 4, 1)]) spaceState ∧ spaceState.space? 0 = some ⟨0, 0, false, 0⟩ := by
  decide +kernel

theorem test_translate_fill_hyps :
    let k := cmd [(18, 2, 0x3400), (20, 4, 7), (24, 8, 0x800000000000), (40, 2, 1), (43, 1, 3)]
    let q : DrvReq := { id := 7, ast := 0, page := 0x800000000, write := false, reduce := false }
    Passes translateFillCmd k spaceState ∧ spaceState.driverRequest k = some q ∧ spaceState.xlat.jobs = {}
    ∧ fillFails k = false ∧ isWindowField (k.u16 18) = false ∧ k.u16 40 = 1 ∧ k.u8 42 = 0
    ∧ Passes translateFillCmd (cmd [(20, 4, 7), (43, 1, 0x80)]) spaceState := by decide +kernel

theorem test_aperture_cmd_hyps :
    Passes apertureMapCmd (cmd [(16, 2, 0x1800), (18, 1, 15), (20, 2, 0x3400), (22, 1, 7), (32, 8, 4096)]) spaceState
    ∧ Passes apertureUnmapCmd (cmd [(16, 2, 0x1800), (18, 1, 15)]) spaceState := by decide +kernel

theorem test_channel_cmd_hyps :
    let s := own [0x201F] spaceState
    let d : PDesc := { index := 3, raw := List.replicate 64 0 }
    let h := openChan { halt := some ⟨0x11, 3, 0, 0⟩, descs := [d] } s
    Passes channelOpenCmd (cmd [(16, 2, 0x201F), (18, 1, 15), (32, 1, 4)]) s
    ∧ Passes channelCloseCmd (cmd [(16, 2, 0x201F), (18, 1, 15)]) (openChan {} s)
    ∧ Passes channelResumeCmd (cmd [(16, 2, 0x201F), (18, 1, 15)]) h
    ∧ Passes channelResumeCmd (cmd [(16, 2, 0x201F), (18, 1, 15), (19, 1, 1)]) h
    ∧ (h.pchan 511).halt = some ⟨0x11, 3, 0, 0⟩ ∧ h.descAt 511 3 = some d ∧ d.tag = none ∧ (parseDesc d.raw).cmpl = false := by
  decide +kernel

theorem test_caddy_hyps :
    let s := own [caddyRef 0, 0x3400] (withPolders [(0, nearPolder), (1, boardPolder)] serving)
    let staged := { smallCaddy with polder := 1 }
    let ready := withCaddy { smallCaddy with state := 2, home := some (0, 0) } s
    let bound := withCaddy { smallCaddy with state := 3, bound := some smallBinding } s
    let k := cmd [(16, 4, caddyRef 0), (20, 2, 0x1800), (22, 1, 1), (24, 8, 1)]
    Passes caddyStageCmd (cmd [(16, 2, 16383), (18, 2, 0x3401), (32, 8, 256)]) s
    ∧ s.stageSlot (cmd [(16, 2, 16383), (18, 2, 0x3401), (32, 8, 256)]) = some 16383
    ∧ Passes caddyInfuseCmd (cmd [(16, 4, caddyRef 0), (20, 2, 0x3400)]) (withCaddy staged s)
    ∧ Passes caddyBindCmd k ready ∧ ((taken ready caddyBindCmd k).planBind k 0 { smallCaddy with state := 2, home := some (0, 0) }).isSome = true
    ∧ smallCaddy.records = [] ∧ smallCaddy.firstSection 1 = none
    ∧ Passes caddyUnbindCmd (cmd [(16, 4, caddyRef 0)]) bound
    ∧ Passes caddyEvictCmd (cmd [(16, 4, caddyRef 0)]) ready
    ∧ Passes caddyEvictCmd (cmd [(16, 4, caddyRef 0), (20, 1, 1)]) (withCaddy staged s) := by decide +kernel

theorem test_program_hyps :
    let s := own [caddyRef 0, 0x1800, 0x3400] (withPolders [(0, nearPolder)] serving)
    let running := { withCaddy { smallCaddy with state := 4, bound := some smallBinding } s with
      prog := { seqs := ⟨[(0, { state := .running })]⟩ } }
    Passes programStopCmd (cmd [(16, 4, caddyRef 0)]) running
    ∧ Passes contextMoveCmd (cmd [(16, 1, 1), (17, 1, 0x11), (18, 2, 0x3400), (20, 2, 0x3400), (32, 8, 4096), (40, 8, 64)]) s
    ∧ s.infOpen ≠ []
    ∧ Passes clusterBindCmd (cmd [(16, 2, 0x1800), (18, 1, 7), (19, 1, 1), (20, 2, 0x201F), (22, 1, 15)]) s
    ∧ Passes clusterUnbindCmd (cmd [(16, 2, 0x1800), (18, 1, 7)])
        (s.setPort 0 { bindings := ⟨[(15, .pump 511)]⟩ }) := by decide +kernel

/-- An infusion whose caddy can be read: the board page that holds its header and manifest is written and good. -/
theorem test_infuse_reads_hyps :
    let c : Caddy := { smallCaddy with polder := 1 }
    let s := own [caddyRef 0, 0x3400] (withPolders [(0, nearPolder), (1, boardPolder)] serving)
    let s := withCaddy c { s with mem := { s.mem with pages := ⟨[(boardBase / 4096, {})]⟩ } }
    let k := cmd [(16, 4, caddyRef 0), (20, 2, 0x3400)]
    let r := (taken s caddyInfuseCmd k).polderRead 1 0 256 false
    Passes caddyInfuseCmd k s ∧ r.2.bad = none ∧ (r.1.polderRead 1 256 12 false).2.bad = none
    ∧ (r.1.polderRead 1 256 12 false).1.infOpen ≠ [] := by decide +kernel

/-- The same with the hash that the caddy was staged under. -/
theorem test_infuse_hash_hyps :
    let c : Caddy := { smallCaddy with polder := 1 }
    let s := own [caddyRef 0, 0x3400] (withPolders [(0, nearPolder), (1, boardPolder)] serving)
    let s := withCaddy c { s with mem := { s.mem with pages := ⟨[(boardBase / 4096, {})]⟩ } }
    let k := cmd [(16, 4, caddyRef 0), (20, 2, 0x3400)]
    let r := (taken s caddyInfuseCmd k).polderRead 1 0 256 false
    let h := withCaddy { c with hash := manifestHash r.2.bytes (r.1.polderRead 1 256 12 false).2.bytes } s
    Passes caddyInfuseCmd k h ∧ ((taken h caddyInfuseCmd k).polderRead 1 0 256 false).2.bad = none := by decide +kernel

/-- An unsigned container of 464 bytes (Tables 12-1 and 12-2): one cluster, one sequencer, an envelope of 8 tokens. -/
def smallManifest : Bytes :=
  toLE 8 1 ++ toLE 8 464 ++ List.replicate 64 0 ++ (toLE 2 1 ++ toLE 2 1 ++ toLE 4 0 ++ toLE 4 8 ++ List.replicate 116 0)
def smallHeader (hash : Bytes) : Bytes :=
  [0x4D, 0x4F, 0x4C, 0x59, 0x4F, 0x43, 0x41, 0x44] ++ toLE 2 1 ++ toLE 2 256 ++ toLE 4 0 ++ toLE 4 1 ++ toLE 4 1 ++ toLE 8 464
    ++ hash ++ toLE 8 256 ++ toLE 8 208 ++ toLE 8 0 ++ toLE 4 0 ++ toLE 4 208 ++ toLE 4 0 ++ toLE 4 208 ++ toLE 4 0 ++ toLE 4 80
    ++ toLE 4 128 ++ List.replicate 124 0

theorem test_container_hyps :
    let image := smallHeader (manifestHash (smallHeader (List.replicate 48 0)) smallManifest) ++ smallManifest
    let s := withPolders [(1, boardPolder)] ready
    let s := { s with mem := { s.mem with
      pages := ⟨[(boardBase / 4096, {})]⟩
      cells := (image.zipIdx.map fun (c : Byte × Nat) => (boardBase + c.2, c.1)).filter fun (c : Nat × Byte) => c.2 != 0 } }
    (s.checkContainer 1 0 464).2.isRight = true := by decide +kernel

/-- A program whose code header can be read: the near page that holds it is written and good. -/
theorem test_program_start_hyps :
    let c : Caddy := { smallCaddy with
      state := 3, bound := some smallBinding, home := some (0, 0)
      sections := [{ type := 1, format := 0, offset := 0, packed := 8192, infused := 8192, digest := [] }] }
    let s := own [caddyRef 0] (withPolders [(0, nearPolder)] serving)
    let s := withCaddy c { s with
      mem := { s.mem with pages := ⟨[(0, {})]⟩, cells := [(2, 1)] }, prog := { seqs := ⟨[(0, {})]⟩ } }
    Passes programStartCmd (cmd [(16, 4, caddyRef 0)]) s
    ∧ ((taken s programStartCmd (cmd [(16, 4, caddyRef 0)])).codeHeader c).isSome = true := by decide +kernel

/-! ### Links, cohort, upkeep, queries, service, keys -/

theorem test_link_cmd_hyps :
    let u := portUnit 47
    let s := own [u, portUnit 46, 0x05000000, 0x06000000] serving
    Passes portTrainCmd (cmd [(16, 2, u)]) s ∧ s.cannotTrain 47 = false
    ∧ Passes portTrainCmd (cmd [(16, 2, u)]) { s with link := { s.link with noRef := [3] } }
    ∧ State.cannotTrain { s with link := { s.link with noRef := [3] } } 47 = true
    ∧ Passes portQualifyCmd (cmd [(16, 2, u), (24, 4, 10000000)]) s
    ∧ Passes portMarginCmd (cmd [(16, 2, u), (18, 1, 3), (112, 8, 8), (120, 4, 6208)] 1) (withPort {} s)
    ∧ Passes portMarginCmd (cmd [(16, 2, u), (18, 1, 3), (19, 1, 1), (24, 4, 6208), (112, 8, 8), (120, 4, 6208)] 1)
        (withPort { margins := ⟨[(3, [])]⟩ } s)
    ∧ marginRead (cmd [(19, 1, 1)]) = true
    ∧ Passes trunkConfigCmd (cmd [(16, 2, portUnit 46), (18, 1, 23), (24, 8, 3 * 2 ^ 46)]) s
    ∧ Bank.sorted s.link.trunks.cells = true
    ∧ Passes windowSetCmd (cmd [(16, 4, 0x05000000), (20, 1, 1), (22, 1, 63), (24, 2, u), (40, 8, 4096)]) s
    ∧ isOutbound (cmd [(16, 4, 0x05000000)]) = true ∧ s.cohort.outWin.get? 0 = none ∧ s.invalidating 0x05000000 = false
    ∧ Passes windowSetCmd (cmd [(16, 4, 0x06000000)]) s ∧ isOutbound (cmd [(16, 4, 0x06000000)]) = false
    ∧ Passes windowSetCmd (cmd [(16, 4, 0x05000000), (24, 2, u)]) { s with cohort := { s.cohort with outWin := ⟨[(0, {})]⟩ } } := by
  decide +kernel

theorem test_cohort_cmd_hyps :
    let s := own [wardenUnit] serving
    let k := { cmd [(17, 1, 1), (112, 8, 8), (120, 4, 72)] 1 with
      ext := toLE 8 0x5452484F434D594B ++ [1, 1] ++ List.replicate 54 0 ++ toLE 4 1 ++ toLE 4 5 }
    let piece := { cmd [(17, 1, 64), (18, 1, 1)] with path := .sideband, ext := List.replicate 8 0 }
    let b : State := { s with kym := { s.kym with sidebandVersion := some 0x0302, leases := [⟨wardenUnit, 128, true⟩] } }
    Passes cohortConfigCmd k s ∧ k.isSideband = false ∧ compatAt k.ext = some 64 ∧ blobOk (k.ext.take 64) (k.u8 17) = true
    ∧ Passes cohortConfigCmd piece b ∧ pieceBad b piece = none ∧ bitOf (piece.u8 18) 0 = true
    ∧ Passes cohortEpochCmd (cmd [(24, 8, 1)]) s
    ∧ Passes timeLeaderSetCmd (cmd [(16, 1, 63), (18, 2, portUnit 47)]) s := by decide +kernel

theorem test_upkeep_cmd_hyps :
    let s := own [0xC7F, wardenUnit] ready
    let island := own (unitsOfIsland (stampIsland 0x201F)) serving
    let armed := fun (rs : List Nat) => rs.map fun r => (refId r, ({ armed := true } : Order))
    let orders : Bank Order := (armed (mandatoryStack ++ mandatoryDie)).foldl (fun b x => b.set x.1 x.2) {}
    Passes patrolConfigCmd (cmd [(16, 2, 0xC7F), (18, 1, 0xFF), (24, 4, 168)]) s
    ∧ Passes remapScheduleCmd (cmd [(16, 2, 0xC7F), (18, 1, 31), (20, 4, 13839)]) s
    ∧ Passes islandClockSetCmd (cmd [(16, 2, 0x201F)]) island
    ∧ Passes serviceEnterCmd (cmd []) { s with orders := orders } := by decide +kernel

theorem test_query_hyps :
    Passes powerQueryCmd (cmd [(112, 8, 8), (120, 4, 17600)] 1) ready
    ∧ Passes unitQueryCmd (cmd [(16, 4, 0x4C00)]) ready ∧ (absent ready 0x4C00).isSome = false
    ∧ Passes unitQueryCmd (cmd [(16, 4, 0x3400)]) ready ∧ (absent ready 0x3400).isSome = true := by
  decide +kernel

theorem test_result_hyps :
    Passes healthReadCmd (cmd [(16, 2, 0x400)]) ready
    ∧ Passes testResultCmd (cmd [(16, 2, 0x400)]) { ready with svc := { results := ⟨[(0x400, ⟨0, 1, 0, 0, 0, 0⟩)]⟩ } } := by
  decide +kernel

theorem test_service_cmd_hyps :
    let u := portUnit 47
    let s := own [0x201F, u, wardenUnit] ready
    let out := fun (u : Nat) => { s with svc := { states := ⟨[(u, .outOfService)]⟩ } }
    Passes unitDrainCmd (cmd [(16, 2, 0x201F)]) s ∧ s.clockStopped 0x201F = false
    ∧ Passes unitDrainCmd (cmd [(16, 2, u)]) (withPort {} s) ∧ (withPort {} s).portUp 47 = true
    ∧ (withPort {} s).clockStopped u = false ∧ unitClass u = 0x05 ∧ (withPort {} s).cohort = {}
    ∧ Passes unitReturnCmd (cmd [(16, 2, 0x201F)]) (out 0x201F)
    ∧ Passes unitReturnCmd (cmd [(16, 2, u)]) (out u) ∧ (out u).cannotTrain 47 = false
    ∧ Passes unitReturnCmd (cmd [(16, 2, infuserUnit 7)]) (own [infuserUnit 7] (out (infuserUnit 7)))
    ∧ Passes fwStageCmd (cmd [(16, 1, 1), (32, 4, 0x1000000)]) s ∧ Passes fwActivateCmd (cmd [(16, 1, 1)]) s
    ∧ Passes testRunCmd (cmd [(16, 2, 0x201F), (18, 1, 1)]) (out 0x201F) := by decide +kernel

theorem test_key_hyps :
    let s := own [sealedUnit] ready
    Passes keyGenerateCmd (cmd [(16, 1, 63)]) s ∧ Passes keyDestroyCmd (cmd [(16, 1, 63)]) s
    ∧ Passes debugChallengeCmd (cmd []) s
    ∧ Passes debugUnlockCmd (cmd [(112, 8, 8), (120, 4, 512)] 1) s ∧ s.tokenOk [] = false := by decide +kernel

/-- A key whose private key is 1, and a signature over a digest under it with nonce 1: s = digest + r (FIPS 186). -/
def unitKey : Bytes := pointBytes curveG
def unitSigned (digest : Bytes) : Bytes :=
  let r := (match curveG with | some (x, _) => x | none => 0) % curveN
  toBE 48 r ++ toBE 48 ((beNat digest + r) % curveN)

/-- A token of scope 5 that answers a nonce of zeros (Table 21-9). -/
theorem test_token_hyps :
    let head : Bytes := [0x4D, 0x4F, 0x4C, 0x59, 0x4F, 0x44, 0x42, 0x47] ++ toLE 2 1 ++ toLE 2 5 ++ List.replicate 52 0
    let s := own [sealedUnit] { ready with
      flash := { ready.flash with debugKey := unitKey }
      sealed := { ready.sealed with nonce := some (List.replicate 32 0, 1000000) } }
    let k := { cmd [(112, 8, 8), (120, 4, 160)] 1 with ext := head ++ unitSigned (sha384 head) }
    s.tokenOk k.ext = true := by decide +kernel

/-! ### Memory and the Basin -/

theorem test_read_hyps :
    let s := paged [40]
    let f := s.setChan 0 { failedReads := [0] }
    Serves s 0 (.narrowRead 0 []) ∧ Serves s 0 (.fullRead 0 []) ∧ chanOf 0 = some 0 ∧ s.ownerOf 0 = some (0, nearPolder)
    ∧ s.stackFailed 0 = false
    ∧ s.keyless nearPolder 0 = false ∧ s.freshClear nearPolder 0 = false ∧ s.entryOf 0 0 = none
    ∧ s.mem.pages.get? 0 = some { errs := [40] } ∧ State.blankBeat { errs := [40] } 0 = false
    ∧ State.unwritten { errs := [40] } = false ∧ inSector 0 40 = false ∧ (s.chan 0).poison = [] ∧ 0 ∉ (s.chan 0).failedReads
    ∧ (List.range 8).length ≤ tOf 0 ∧ (List.range 9).length > tOf 0
    ∧ Serves f 0 (.fullRead 0 []) ∧ f.ownerOf 0 = some (0, nearPolder) ∧ 0 ∈ (f.chan 0).failedReads
    ∧ f.keyless nearPolder 0 = false := by decide +kernel

theorem test_write_hyps :
    let s := paged []
    ([0xFF] : Bytes) ≠ [] ∧ 31 % 32 + ([0xFF] : Bytes).length ≤ 32 ∧ chanOf 31 = some 0 ∧ s.ownerOf 31 = some (0, nearPolder)
    ∧ s.keyless nearPolder 31 = false ∧ s.crosses (chanIsland 0) = false ∧ s.takesWrites 0 = true ∧ s.entryOf 0 0 = none
    ∧ (s.chan 0).entries.length < 64 ∧ Serves s 0 (.fullPageWrite 0 (List.replicate 4096 0xFF)) ∧ (s.chan 0).held = []
    ∧ (List.replicate 4096 (0xFF : Byte)).length = 4096 := by decide +kernel

theorem test_merge_commit_hyps :
    let e : MergeEntry := { page := 0, opened := 2 ^ 62 - 2000, bytes := ⟨[(4095, 7)]⟩ }
    let s := (paged []).setChan 0 { entries := [e] }
    s.entryOf 0 0 = some e ∧ e.opened + 2000 ≤ s.now ∧ s.memWaits 0 = false ∧ s.ownerOf 0 = some (0, nearPolder)
    ∧ s.keyless nearPolder 0 = false ∧ s.freshClear nearPolder 0 = false ∧ s.mem.pages.get? 0 = some {} := by decide +kernel

theorem test_board_hyps :
    let s := { serving with mem := { trained := [11] } }
    chanOf (4096 * ((boardBase + 11 * 0x1C0000000) / 4096)) = some (128 + 11) ∧ s.mem.trained.contains 11 = true
    ∧ s.chanStopped (128 + 11) = false ∧ s.islandHalted (chanIsland (128 + 11)) = false := by decide +kernel

theorem test_patrol_hyps :
    let s := paged (List.range 8)
    s.patrolRuns 0 = true ∧ State.unwritten { errs := List.range 8 } = false ∧ (s.chan 0).poison = []
    ∧ (s.chan 0).patrol.sluice = none ∧ (s.chan 0).patrol.last + s.patrolSpacing 0 ≤ s.now ∧ s.nextPatrolPage 0 (s.chan 0).patrol.next = some 0
    ∧ s.entryOf 0 0 = none ∧ (∀ o, s.ownerOf 0 = some o → s.freshClear o.2 0 = false) ∧ (List.range 8).length ≤ tOf 0 := by
  have owner : (paged (List.range 8)).ownerOf 0 = some (0, nearPolder) := by decide +kernel
  simp only [owner, Option.some.injEq, forall_eq']
  decide +kernel

theorem test_row_remap_hyps :
    let r : RowTrack := ⟨31, 13839, 2, 0, 0⟩
    let ref := orderRef 3 (nearUnit 127)
    let s := serving.setChan 127 { rows := [r], remaps := [⟨31, 0, 0⟩] }
    let s := { s with orders := ⟨[(refId ref, { armed := true, params := toLE 4 2 ++ toLE 4 1 ++ toLE 2 2 })]⟩ }
    (s.chan 127).rows.find? (fun x => x.bank == 31 && x.row == 13839) = some r ∧ (s.order ref).armed = true
    ∧ fieldAt (s.order ref).params 0 2 ≤ r.count ∧ r.last ≤ r.first + s.remapWindow 127 ∧ s.chanLost 127 = false
    ∧ s.islandHalted (chanIsland 127) = false ∧ ((s.chan 127).remaps.any fun m => m.bank == 31 && m.row == 13839) = false
    ∧ (s.chan 127).remaps.length < fieldAt (s.order ref).params 8 2 ∧ freeSpare (s.chan 127).remaps 31 = some 1 := by
  decide +kernel

theorem test_stack_hyps :
    let s := paged []
    s.stackFailed 7 = false ∧ 12 ≤ s.boot.step ∧ (s.mem.nearStacks.get {} 7).lastReadout + 1000000 ≤ s.now ∧ s.boot.device = .service
    ∧ (homeIslands (stackUnit 7)).all s.islandHalted = false ∧ 127 / 16 = 7 ∧ s.islandHalted (chanIsland 127) = false := by
  decide +kernel

theorem test_patrol_rate_hyps :
    let r := orderRef 4 (chanUnit 139)
    let s := { serving with orders := ⟨[(refId r, { armed := true, params := toLE 4 1 })]⟩ }
    (s.order r).armed = true ∧ (s.order r).triggered = false ∧ s.islandHalted (chanIsland 139) = false := by decide +kernel

theorem test_conversion_hyps :
    let c : Conversion := { newStrength := 3, newKey := 0 }
    let p : Polder := { nearPolder with conv := some c }
    let s := paged [] p
    let s := { s with kym := { s.kym with running := [{ opcode := 0x1004, cmd := cmd [], ref := polderUnit 0 }] } }
    s.polder? 0 = some p ∧ p.pageAt 0 = some 0 ∧ s.memWaits 0 = false ∧ s.runningOn 0x1004 (polderUnit 0) = true
    ∧ chanOf 0 = some 0 ∧ s.entryOf 0 0 = none ∧ s.mem.pages.get? 0 = some {} ∧ State.unwritten {} = false := by decide +kernel

/-- Line 0 held dirty in its home slice, and a fill of the next line. -/
theorem test_basin_hyps :
    let p : Polder := { nearPolder with quota := 64 }
    let l : Line := { tag := 0, way := 15, polder := 0, dirty := false, data := List.replicate 128 0 }
    let s := (paged [] p).setSlice 0 { lines := [l] }
    homeSlice 127 = 0 ∧ s.caches 0 = true ∧ (s.slice 0).lookup 0 = some l ∧ (chanOf 127).isSome = true ∧ 127 % 128 + 1 ≤ 128
    ∧ s.crosses (homeSlice 127) = false ∧ l.poison = [] ∧ Serves s 0 (.lineFill (.pump true) 128) ∧ allocates (.pump true) = true
    ∧ chanOf 128 = some 0 ∧ s.ownerOf 128 = some (0, p) ∧ s.caches (homeSlice 128) = true
    ∧ (s.slice (homeSlice 128)).lookup 1 = none ∧ (s.fetchLine 1).2.bad = none
    ∧ ((s.fetchLine 1).1.chooseWay (homeSlice 128) 1 0 p) = some (0, none) := by decide +kernel

/-! ### Translation and pumps -/

theorem test_translation_event_hyps :
    let q : AtsReq := { ast := 0, page := 5, count := 1 }
    let p : PageReq := { group := 511, fn := 0, page := 5, job := 2 }
    let j : XJob := { requester := 0, engine := 0, unit := 0, fn := 0, ast := 0, need := [] }
    let v : Inval := { scope := .tag 0, cause := .ats 0 31, waiting := [47] }
    let s := { spaceState with xlat := { spaceState.xlat with ats := [q] } }
    let r := { spaceState with xlat := { spaceState.xlat with pages := [p], jobs := ⟨[(2, j)]⟩ } }
    let i := { spaceState with xlat := { spaceState.xlat with invals := [v] } }
    s.crosses islHost = false ∧ s.crosses islXlat = false ∧ s.barUp 0 = true
    ∧ s.xlat.ats.find? (fun x => x.ast == 0 && x.page == 5) = some q ∧ s.xlat.jobs = {} ∧ q.discard = false
    ∧ r.xlat.pages.find? (fun x => x.fn == 0 && x.group == 511) = some p ∧ r.xlat.jobs.get? 2 = some j
    ∧ (s.xlat.invals.filter fun v => match v.cause with | .ats _ _ => true | _ => false).length < 32
    ∧ (List.range 48).filter s.holdsEntries ≠ []
    ∧ i.islandHalted islHost = false ∧ i.crosses islXlat = false ∧ r.crosses islHost = false ∧ r.crosses islXlat = false
    ∧ i.xlat.invals.find? (fun v => v.waiting.contains 47) = some v
    ∧ (i.xlat.jobs.any fun _ j => j.engine == 47 && j.busy && j.got.any (i.overlaps v.scope)) = false := by decide +kernel

theorem test_pump_hyps :
    let e : XEntry := { ast := 0, page := 0, r := true, w := true, target := .host 0x7000 }
    let j : XJob := { requester := 0, engine := 31, unit := 0, fn := 0, ast := 0, need := [], got := [e] }
    let s := pumpState { tail := 1, ringJob := some 3 }
    let s := { s with xlat := { s.xlat with jobs := ⟨[(3, j)]⟩ } }
    s.isHostChan (16 * 31 + 15) = true ∧ (s.pchan 511).fn = 0 ∧ s.barUp 0 = true ∧ s.crosses (156 + 31 / 4) = false
    ∧ j.remark = false ∧ (s.pchan 511).closing = none
    ∧ (s.pchan 511).next ≠ (s.pchan 511).tail
    ∧ ((s.pchan 511).descs.filter fun d => !d.dispatched && !d.completed).length < 8 ∧ s.pumpRuns 31 = true
    ∧ s.xlat.jobs.get? 3 = some j ∧ j.status = .ready ∧ s.place 0 (some 3) 0 0 = .host 0x7000 0 := by decide +kernel

theorem test_pump_dispatch_hyps :
    let d : PDesc := { index := 3, raw := List.replicate 64 0 }
    let f : PDesc := { index := 3, raw := [0, 4] ++ List.replicate 62 0 }
    let o : PDesc := { index := 2, raw := List.replicate 64 0, dispatched := true }
    let b : PDesc := { d with fail := some (0x11, 8, 0) }
    let s := pumpState { descs := [d] }
    let t := pumpState { descs := [o, f] }
    let u := pumpState { descs := [b] }
    (s.pchan 511).halt = none ∧ s.pumpRuns 31 = true ∧ s.nextTurn 31 = none ∧ t.nextTurn 31 = none ∧ t.pumpRuns 31 = true
    ∧ (∀ x ∈ (s.pchan 511).descs, x.index = d.index → x = d) ∧ o.completed = false ∧ (parseDesc f.raw).fence = true
    ∧ (s.pchan 511).descs.find? (fun d => !d.dispatched && !d.completed) = some d ∧ (parseDesc d.raw).type = 0
    ∧ (parseDesc d.raw).fence = false
    ∧ (t.pchan 511).descs.find? (fun d => !d.dispatched && !d.completed) = some f
    ∧ (t.pchan 511).descs.takeWhile (fun o => o.index != 3) = [o]
    ∧ (u.pchan 511).descs.find? (fun d => !d.dispatched && !d.completed) = some b ∧ u.descAt 511 3 = some b := by decide +kernel

theorem test_pump_completion_hyps :
    let p : Piece := { tile := 0, len := 64 }
    let d : PDesc := { index := 3, raw := [4] ++ List.replicate 63 0, dispatched := true, pieces := [p, { tile := 64, len := 64 }] }
    let e : PDesc := { index := 3, raw := List.replicate 64 0, dispatched := true }
    let s := pumpState { descs := [d] }
    let t := pumpState { descs := [e] }
    s.crosses islHost = false ∧ s.crosses (156 + 31 / 4) = false ∧ s.nextTurn 31 = none ∧ p.write = false
    ∧ s.descAt 511 3 = some d ∧ d.pieces.find? (fun p => p.tile == 0) = some p ∧ 1 < d.pieces.length
    ∧ (parseDesc d.raw).isTx = true ∧ (s.pchan 511).halt = none
    ∧ (t.pchan 511).words = [] ∧ t.descAt 511 3 = some e ∧ t.descDone 511 e = true ∧ e.tag = none
    ∧ (parseDesc e.raw).cmpl = false := by decide +kernel

/-! ### Pins, boot, doorbells, the warden, intake, events, registers -/

theorem test_pin_hyps :
    let off := { ready with boot := { ready.boot with pwrOk := false } }
    let held := { ready with boot := { ready.boot with coldRst := true } }
    off.boot.pwrOk = false ∧ ready.boot.coldRst = false ∧ held.boot.coldRst = true ∧ ready.boot.perst = false
    ∧ ready.boot.device ≠ .cold := by decide

theorem test_boot_hyps :
    (∀ n, n < 16 → (bootAt n).stepMayEnd (n + 1) = true) ∧ (bootAt 0).sealed.resets = 0
    ∧ State.bankPasses (bootAt 7) 0 = true
    ∧ State.islandHalted { bootAt 6 with boot := { (bootAt 6).boot with config := .rrs } } islHost = false
    ∧ State.bankPasses { bootAt 7 with flash := { bank0 := { valid := false } } } 0 = false
    ∧ State.bankPasses { bootAt 7 with flash := { bank0 := { valid := false }, bank1 := { valid := false } } } 1 = false
    ∧ islandReference (92 + 47) = .link 3
    ∧ ready.islandHalted islHost = false ∧ ready.boot.config = .full ∧ ready.functionExists 0 = true := by
  decide +kernel

theorem test_doorbell_hyps :
    let a := ready.setKymFn 0 { aqEnable := true, urgBusy := true }
    ready.barUp 0 = true ∧ ready.pair? 0 0 = some {} ∧ ready.pair? 0 3 = none
    ∧ (0 + 2 ^ 4 - (16 : BitVec 32).toNat % 4096 % 2 ^ 4) % 2 ^ 4 ≤ 0 ∧ (1 : BitVec 32).toNat % 2 = 1
    ∧ (ready.kymFn 0).urgBusy = false ∧ (ready.kymFn 0).aqEnable = false ∧ (ready.kymFn 0).cqLog = 4 ∧ (ready.kymFn 0).rqLog = 4
    ∧ ready.kym.heldReplies = [] ∧ a.barUp 0 = true ∧ (a.kymFn 0).aqEnable = true ∧ (a.kymFn 0).urgBusy = true := by
  decide +kernel

def wardenIn (w : WardenState) : State := { ready with kym := { ready.kym with warden := w } }

theorem test_warden_hyps :
    let f := { ready with kym := { ready.kym with activating := some 1 } }
    ready.clk.wardenLocked = true ∧ ready.islandHalted islWarden = false ∧ ready.kym.warden ≠ .halted
    ∧ (wardenIn .halted).barUp 0 = true ∧ (wardenIn .halted).islandHalted islWarden = false ∧ ready.sidebandUp = true
    ∧ (wardenIn .restarting).islandHalted islWarden = false ∧ (wardenIn .restarting).kym.running = []
    ∧ f.quiet = true ∧ f.wardenTakes = true ∧ (f.image 1).rollback ≥ f.flash.rollbackFuses := by decide +kernel

theorem test_intake_hyps :
    let s := { ready.setPair 0 0 { tail := 1 } with kym := { (ready.setPair 0 0 { tail := 1 }).kym with rung := ⟨[(0, ())]⟩ } }
    let u := { ready with kym := { ready.kym with rung := ⟨[(4, ())]⟩ } }
    let e : Bytes := toLE 2 0x0101 ++ List.replicate 126 0
    let b := { ready with kym := { ready.kym with sideband := [(0x0101, cmd [])], rung := ⟨[(640, ())]⟩ } }
    s.nextPosition [] = some 0 ∧ pathOf 0 = .queue 0 0 ∧ s.pair? 0 0 = some { tail := 1 } ∧ s.wardenTakes = true
    ∧ (KCmd.parse (.queue 0 0) e [] {}).1 = 0x0101 ∧ (cmdOf 0x0101).isSome = true ∧ (cmdOf 0xFFFF).isNone = true
    ∧ (KCmd.parse (.queue 0 0) (List.replicate 2 0xFF ++ List.replicate 126 0) [] {}).1 = 0xFFFF
    ∧ s.version? (.queue 0 0) = some 0x0302
    ∧ seqCheck s 0xFFFF (KCmd.parse (.queue 0 0) (List.replicate 2 0xFF ++ List.replicate 126 0) [] {}).2 = none
    ∧ u.nextPosition [] = some 4 ∧ pathOf 4 = .urgent 0 ∧ b.nextPosition [] = some 640 ∧ pathOf 640 = .sideband
    ∧ u.wardenTakes = true ∧ b.wardenTakes = true
    ∧ (Path.queue 0 0).position = 0 ∧ s.pathOpen (cmd []) = true := by decide +kernel

theorem test_reply_hyps :
    let r : Running := { opcode := 0x1002, cmd := cmd [], ref := 0x3400, outcome := some { status := stOk } }
    let s := { ready with kym := { ready.kym with running := [r] } }
    let b : Running := { opcode := 0x0107, cmd := cmd [], ref := 0x400 }
    let t := { ready with kym := { ready.kym with running := [b], breaks := ⟨[(0x400, [⟨0, true, .queue 0 0, 0⟩])]⟩ } }
    s.kym.running.find? (fun r => decide (r.cmd.path = .queue 0 0) && r.cmd.seq == 0) = some r
    ∧ ((cmdOf 0x1002).bind fun c => (c.finish s r {}).map (·.2)) = some { status := stOk }
    ∧ s.kym.warden = .running ∧ s.islandHalted islWarden = false ∧ r.orphan = false
    ∧ (t.kym.breaks.get [] 0x400).find? (fun b => !t.breakWaits 0x400 b.breaker) = some ⟨0, true, .queue 0 0, 0⟩
    ∧ t.kym.running.find? (fun r => r.opcode == 0x0107 && r.ref == 0x400 && decide (r.cmd.path = .queue 0 0) && r.cmd.seq == 0)
      = some b := by decide +kernel

theorem test_event_hyps :
    let e : Event := { code := 0x0902, severity := 0, unit := wardenUnit, cls := 9, route := .fn 0 }
    let q : EvQueue := { enabled := true, log2 := 6 }
    let s := ({ ready with ev := { ready.ev with held := [e] } }).setQueue 0 q
    let full := s.setQueue 0 { q with held := 64 }
    let lost := ready.setQueue 0 { q with first := some ⟨9, 0x0902, 1, 0, 0, 1⟩ }
    (codeSeverities 0x0503).contains 4 = true ∧ codeUnit 0x0503 (chanUnit 139) = true ∧ detailOk 0x0503 0 = true
    ∧ ready.islandHalted islWarden = false ∧ ready.sealed.resets = 0 ∧ ready.routeBlocked = false
    ∧ s.routeFn e = some 0 ∧ (s.queue 0).first = none ∧ (s.queue 0).isFull = false ∧ s.ev.noLog = false
    ∧ (full.queue 0).isFull = true
    ∧ (lost.queue 0).first.isSome = true ∧ (lost.queue 0).isFull = false
    ∧ (s.queue 0).enabled = true ∧ (full.queue 0).held = 64 := by decide +kernel

theorem test_event_head_hyps :
    let s := ready.setQueue 0 { enabled := true, held := 64 }
    s.barUp 0 = true ∧ (63 : BitVec 32).toNat % 65536 < 2 ^ 6 ∧ (0 + 2 ^ 6 - (63 : BitVec 32).toNat % 65536) % 2 ^ 6 ≤ (s.queue 0).held
    ∧ 2047 < vectorLimit 0 ∧ State.now { ready with clk := { tbase := 60000000000 } } = 60000000000 := by decide +kernel

theorem test_register_hyps :
    let s := { ready with ev := { ready.ev with bar0Slots := ⟨[(0, ⟨0x300, 7⟩)]⟩, smbusSlot := some ⟨0x10, 7⟩ }
                          host := { ready.host with sbrOffset := 0x14 } }
    s.barUp 0 = true ∧ s.sidebandUp = true ∧ s.ev.bar0Slots.get? 0 = some ⟨0x300, 7⟩ ∧ ready.ev.bar0Slots.get? 0 = none
    ∧ bar0Writes 0x0020 3 = false ∧ bar0Writes 0x0020 4 = true := by decide +kernel

/-! ### JTAG, clocks, power, the dies -/

theorem test_jtag_hyps :
    let u := 0x201F
    let s := { ready with svc := { states := ⟨[(u, .outOfService)]⟩, results := ⟨[(u, ⟨0, 1, 0, 0, 0, 0⟩)]⟩ }
                          ev := { ready.ev with jtagSlot := some ⟨0x10, 7⟩ } }
    ready.boot.pwrOk = true ∧ ready.boot.smbusUp = true ∧ ready.islandHalted islHost = false ∧ ready.sealed.unlocked = none
    ∧ unitValid u = true ∧ ownStates (unitClass u) = true ∧ testClass 1 (unitClass u) = true ∧ s.testHeld 1 u = none
    ∧ s.unitState u = .outOfService ∧ (s.svc.results.get? u).isSome = true ∧ s.ev.jtagSlot = some ⟨0x10, 7⟩
    ∧ ready.sealed.slots.cells = [] ∧ (∀ p, p < 48 → ready.portUp p = false) := by decide +kernel

theorem test_clock_hyps :
    let i := islSeal - 1
    let g := { ready with clk := { ready.clk with islands := ⟨[(i, { gatedAt := some 990000 })]⟩ } }
    let l := { g with clk := { g.clk with tbase := 1000001 } }
    let k := { ready with clk := { ready.clk with locked := ⟨[(i, ())]⟩ } }
    let e := 172 + 7
    let d := { l with clk := { l.clk with islands := ⟨[(e, { gatedAt := some 990000 })]⟩ }
                      svc := { states := ⟨[(gatherUnit 7, .draining)]⟩ } }
    i < islSeal ∧ k.dpllLocked i = true ∧ k.islandHalted i = false ∧ (g.island i).gatedAt = some 990000
    ∧ (g.island i).stopped = false ∧ g.now ≤ 990000 + 10000 ∧ 990000 + 10000 < l.now
    ∧ i ∉ [islWarden, islHost, islXlat] ∧ islandChannels i = [] ∧ (∀ u ∈ unitsOfIsland i, l.unitState u ≠ .draining)
    ∧ (d.island e).gatedAt = some 990000 ∧ (d.island e).stopped = false ∧ gatherUnit 7 ∈ unitsOfIsland e
    ∧ ownStates (unitClass (gatherUnit 7)) = true ∧ d.unitState (gatherUnit 7) = .draining := by decide +kernel

theorem test_power_hyps :
    let s := { ready with mem := { trained := [11] } }
    ready.islandHalted islPmgr = false ∧ 3 ≤ ready.boot.step ∧ 12 ≤ ready.boot.step
    ∧ (homeIslands (stackUnit 7)).all ready.islandHalted = false ∧ s.islandHalted (80 + 11) = false
    ∧ s.refreshRuns 127 = true ∧ s.refreshRuns 139 = true
    ∧ 11 ∈ s.mem.trained ∧ ready.boot.pwrOk = true ∧ 7 ∉ ready.power.trip ∧ 95 ∉ ready.power.tripped := by decide +kernel

/-- No run of bytes has this as its check sequence. -/
theorem test_wrong_crc_hyps : (∀ bs, crc16 bs ≠ 65536) ∧ ∀ bs, flitCrc bs ≠ 65536 :=
  ⟨fun bs => Nat.ne_of_lt (crc16_lt bs), fun bs => Nat.ne_of_lt (flitCrc_lt bs)⟩

theorem test_psb_hyps :
    let b := fun (x y z : Byte) => [x, y, z] ++ List.replicate 29 (0 : Byte)
    let s := bootAt 13
    let s := { s with d2d := {} }
    (b 0x80 1 64).length = 32 ∧ byteAt (b 0x80 1 64) 1 = 1 ∧ byteAt (b 0x80 1 64) 2 = 64
    ∧ (s.die 3).checked = false ∧ s.unitState (dieUnit 3) = .inService
    ∧ byteAt (b 0x81 56 0) 1 % 8 = 0 ∧ byteAt (b 0x81 56 0) 1 < 64 ∧ byteAt (b 0x82 0 0) 0 = 0x82 ∧ byteAt (b 0x83 0 0) 0 = 0x83 := by
  decide +kernel

theorem test_group_hyps :
    let data : Bytes := [1, 0, 31, 0, 1] ++ List.replicate 123 0
    let side := fun (seq type unit : Nat) => toLE 6 (seq + 128 * type + 1024 * unit)
    let s := clusterState { stream := { fails := 6, rxSeq := 127 } }
    s.d2dRuns 255 = true ∧ data.length = 128 ∧ (side 127 grpCtrl 0).length = 6
    ∧ (s.port 255).stream.fails < 7
    ∧ bitsOf (fieldAt (side 0 grpStream 7) 0 6) 7 3 ≠ grpIdle ∧ fieldAt (side 0 grpStream 7) 0 6 % 128 ≠ (s.port 255).stream.rxSeq
    ∧ bitsOf (fieldAt (side 127 grpCtrl 0) 0 6) 7 3 = grpCtrl ∧ fieldAt (side 127 grpCtrl 0) 0 6 % 128 = (s.port 255).stream.rxSeq
    ∧ bitsOf (fieldAt (side 127 grpStream 7) 0 6) 7 3 = grpStream ∧ bitsOf (fieldAt (side 127 grpStream 7) 0 6) 10 3 = 7
    ∧ s.endpointOf 255 7 1 = none ∧ (s.port 255).bindings = {} := by decide +kernel

theorem test_aperture_hyps :
    let r : ApReq := { tag := 63, op := 0, slot := 15, size := 3, type := 0, offset := 0 }
    let s := clusterState { requests := [r] }
    let m := { s with xlat := { apertures := ⟨[(apertureKey 255 15, ⟨0, 0, 4096, true, true, true⟩)]⟩ } }
    let t := clusterState { requests := [{ r with answer := some (0, []) }] }
    s.d2dRuns 255 = true ∧ s.apOpen 255 63 = some 0 ∧ (s.port 255).requests[0]? = some r ∧ s.apBehind 255 0 r = false
    ∧ (s.apCause 255 r).isSome = true ∧ m.d2dRuns 255 = true ∧ m.apOpen 255 63 = some 0 ∧ (m.port 255).requests[0]? = some r
    ∧ m.apCause 255 r = none ∧ m.apDpa 255 r = some 0 ∧ m.apBehind 255 0 r = false ∧ m.lineWaits 0 = false ∧ t.d2dRuns 255 = true
    ∧ ((t.port 255).requests.find? fun r => r.tag == 63 && r.answer.isSome) = some { r with answer := some (0, []) } := by
  decide +kernel

theorem test_message_hyps :
    let m := fun (x : Byte) => [x, 0, 31, 0, 1] ++ List.replicate 11 (0 : Byte)
    let s := withCaddy { smallCaddy with state := 4, bound := some smallBinding } (clusterState { ctrl := [m 1], caddy := some 0 })
    s.d2dRuns 255 = true ∧ (s.port 255).ctrl = [m 1] ∧ byteAt (m 1) 0 = 1 ∧ (s.port 255).caddy = some 0 ∧ smallBinding.seqs[0]? = some 0
    ∧ (s.sq 0).wait = none ∧ (clusterState { ctrl := [m 2] }).d2dRuns 255 = true ∧ byteAt (m 2) 0 = 2 ∧ byteAt (m 3) 0 = 3 := by
  decide +kernel

theorem test_fetch_hyps :
    let f := crc16 (toLE 6 0) * 2 ^ 48
    let g := crc16 (toLE 6 0x3FFFF0000) * 2 ^ 48 + 0x3FFFF0000
    let s := clusterState {}
    let b := withCaddy smallCaddy (clusterState { caddy := some 0 })
    crc16 (toLE 6 f) = bitsOf f 48 16 ∧ bitOf f 7 = false ∧ bitOf f 15 = false ∧ f % 128 = (s.port 255).fetch.rxSeq
    ∧ (s.port 255).fetch.unacked.length < 16 ∧ (s.port 255).caddy = none
    ∧ crc16 (toLE 6 g) = bitsOf g 48 16 ∧ (b.port 255).caddy = some 0 ∧ (b.fetchWindow 0).2.2 ≤ 64 * bitsOf g 16 18 := by
  decide +kernel

/-! ### Jobs of reducers, Infuser units and gather engines -/

/-- A translation record that leads page 0 of space 0 to polder 0. -/
def mappedJob : XJob :=
  { requester := 0, engine := 0, unit := 0, fn := 0, ast := 0, need := []
    got := [{ ast := 0, page := 0, r := true, w := true, a := true, target := .polder 0 0 }] }

theorem test_reducer_hyps :
    let r : ApReq := { tag := 63, op := 2, slot := 15, size := 3, type := 1, offset := 0, passed := true }
    let c := { clusterState { requests := [r] } with
      xlat := { apertures := ⟨[(apertureKey 255 15, ⟨0, 0, 4096, true, true, true⟩)]⟩ } }
    let o : SeqOp := { id := 5, cls := 3, index := 0, work := .red 2 0 0 1 1 (toLE 8 1) true none none }
    let s := programState { ops := [o] }
    let i : InboundReq := ⟨47, { op := 3, tag := 9, src := 63, dst := 0, count := 1, type := 1, window := 0, offset := 0, epoch := 0,
                                 data := toLE 8 1 }, 0, 4⟩
    let w := { s with cohort := { inbound := [i] }, xlat := { jobs := ⟨[(4, mappedJob)]⟩ } }
    let u := { w with xlat := { jobs := ⟨[(4, { mappedJob with got := [] })]⟩ } }
    (c.port 255).requests.findIdx? (fun q => q.tag == 63 && q.passed && q.answer.isNone) = some 0
    ∧ c.apDpa 255 r = some 0 ∧ c.redRuns 0 = true
    ∧ (s.sq 0).ops.find? (fun o => o.id == 5) = some o ∧ s.seqPlace 0 none 2 0 = .polder 0 0 ∧ s.placeDpa (.polder 0 0) = some 0
    ∧ s.lineBusy 0 5 (.polder 0 0) = false ∧ s.redRuns 0 = true
    ∧ w.inboundHead 47 = some i ∧ mappedJob.status = .ready
    ∧ ((w.inboundPlaces i).head?.bind fun x => w.placeDpa x.2) = some 0 ∧ redFits 1 1 0 = true ∧ w.redRuns 0 = true
    ∧ ((u.inboundPlaces i).head?.bind fun x => u.placeDpa x.2) = none := by decide +kernel

theorem test_infuser_hyps :
    let raw := fun (fmt len : Nat) => toLE 1 1 ++ toLE 1 fmt ++ toLE 1 10 ++ toLE 5 0 ++ toLE 8 0 ++ toLE 8 4096 ++ toLE 8 len ++ toLE 8 4096 ++ toLE 24 0
    let j : InfJob := { raw := raw 0x11 0, owner := .seq ⟨0, 5, 1⟩ }
    let w : InfJob := { raw := wardenDesc 1 0x11 0 0 0 64, owner := .context 0x3400 }
    let o : SeqOp := { id := 5, cls := 2, index := 0 }
    let st := fun (j : InfJob) => (programState { ops := [o] }).setInfUnit 7 { jobs := [j] }
    (st j).boot.device ≠ .lost ∧ (st j).inf.queue = [] ∧ ((st j).infUnit 7).jobs = [j] ∧ j.started = false ∧ j.job = none ∧ (st j).infRuns 7 = true
    ∧ j.isWarden = false ∧ w.isWarden = true ∧ (st w).reservedTokens + 40 ≤ (st w).pool
    ∧ (withCaddy { smallCaddy with envelope := 700 } (st w)).pool < (withCaddy { smallCaddy with envelope := 700 } (st w)).reservedTokens + 40
    ∧ (parseInf (raw 0x11 0)).malformed (raw 0x11 0) false = false ∧ (parseInf (raw 0 0)).malformed (raw 0 0) false = true
    ∧ (st j).infOutside j (parseInf j.raw) = none
    ∧ ((parseInf j.raw).srcSegs.any fun g => (st j).placeWaits ((st j).infPlace j (parseInf j.raw).srcKind g.addr) g.len) = false
    ∧ ((st j).readInf 7 j (parseInf j.raw) []).1.bad = false
    ∧ ((st j).sq 0).program = 1 ∧ (∀ x ∈ ((st j).sq 0).ops, x.id = 5 → x.done = none)
    ∧ ((State.outPages (parseInf j.raw).dst (j.out.take (parseInf j.raw).cap)).any fun p =>
        (st j).placeWaits ((st j).infPlace j (parseInf j.raw).dstKind p.1) p.2.length) = false := by decide +kernel

/-- A gather job of two blocks: descriptor by kind, score kind, threshold, window. -/
def gatherRaw (kind score threshold window : Nat) : Bytes :=
  toLE 1 (kind + 4 * score) ++ toLE 3 0 ++ toLE 2 0 ++ toLE 2 threshold ++ toLE 8 0 ++ toLE 8 0x1000 ++ toLE 8 0 ++ toLE 4 64
    ++ toLE 4 64 ++ toLE 4 2 ++ toLE 4 window ++ toLE 4 3 ++ toLE 4 0 ++ toLE 8 0

/-- Lane 63 of gather engine 7 feeds stream unit 7 of cluster 0 and holds one job. -/
def laneState (j : GatherJob) : State :=
  let s := (programState { ops := [{ id := 5, cls := 1, index := 0 }] }).setPort 0
    { caddy := some 0, bindings := ⟨[(14, .gather 511)]⟩ }
  { s with gath := { lanes := ⟨[(511, { jobs := [j] })]⟩ }, xlat := { spaces := ⟨[(0, ⟨0, 0, false, 0⟩)]⟩ } }

theorem test_gather_accept_hyps :
    let j := fun (raw : Bytes) => ({ raw := raw, tag := ⟨0, 5, 1⟩ } : GatherJob)
    let p := gatherRaw 2 2 0 0
    let h := gatherRaw 0 2 0 0
    let t := gatherRaw 2 0 1 0
    let bad := gatherRaw 3 2 0 0
    ((laneState (j p)).lane 511).jobs = [j p] ∧ (laneState (j p)).gatherRuns 7 = true ∧ (laneState (j p)).boot.device ≠ .lost
    ∧ (laneState (j p)).checkGather 511 (j p) = none ∧ (parseGather p).needsScores = false ∧ (parseGather p).kind ≠ 0
    ∧ (((List.range (parseGather p).blocks).flatMap (parseGather p).blockSegs).any
        ((laneState (j p)).segOutside 0 (parseGather p).kind)) = false
    ∧ (laneState (j h)).checkGather 511 (j h) = none ∧ (parseGather h).needsScores = false ∧ (parseGather h).kind = 0
    ∧ (laneState (j t)).checkGather 511 (j t) = none ∧ (parseGather t).needsScores = true ∧ (parseGather t).scoreKind = 0
    ∧ (laneState (j bad)).checkGather 511 (j bad) = some 0x12 := by decide +kernel

theorem test_gather_slot_hyps :
    let j : GatherJob := { raw := gatherRaw 2 2 0 0, tag := ⟨0, 5, 1⟩, accepted := some 0, masked := true, mask := [0, 0] }
    let k : GatherJob := { j with releases := [1], mask := [1, 0] }
    let n : GatherJob := { j with releases := [1] }
    let e : GatherJob := { j with slot := 2 }
    let s := laneState n
    0 + ([] : List Nat).length < (parseGather j.raw).blocks ∧ (laneState j).gatherRuns 7 = true
    ∧ s.boundTo (.gather 511) 0 = some (0, 7) ∧ (s.port 0).dead = false ∧ (k.mask[k.slot]?).getD 0 ≠ 0 ∧ (n.mask[n.slot]?).getD 0 = 0
    ∧ (((parseGather n.raw).blockSegs 0).any fun g => s.placeWaits (s.place 0 none 2 g.addr) g.len) = false
    ∧ (laneState j).islandHalted (172 + 7) = false ∧ s.gatherRuns 7 = true ∧ n.allPoison = false ∧ (n.job = none)
    ∧ { n with allPoison := true }.allPoison = true
    ∧ State.boundTo { s with d2d := {} } (.gather 511) 0 = none
    ∧ (parseGather e.raw).blocks ≤ e.slot ∧ (s.sq 0).program = 1 ∧ (∀ o ∈ (s.sq 0).ops, o.id = 5 → o.done = none) := by
  decide +kernel

/-! ### Links -/

/-- A flit that came without error. -/
def goodFlit (kind seq : Nat) (payload : Bytes) : RxFlit := { bytes := flitBytes kind seq 0 payload }

/-- Port 47 is ACTIVE with keys, holds one ciphertext of a segment, and has received these flits. -/
def heardPort (rxq : List RxFlit) : State :=
  withPort { keys := some { rxKey := 1 }, rxSeq := 127, rxq := rxq, rxHeld := [segmentText 1 [] 0 0 (fitBytes 64 [2])] } ready

theorem test_flit_hyps :
    let d := goodFlit 1 127 (toLE 1 1)
    let l := goodFlit 3 0 (toLE 1 1 ++ toLE 1 0 ++ toLE 2 9)
    let bad := { d with lost := true }
    (heardPort []).portRuns 47 = true ∧ (List.replicate 4 ([0, 3] : List Nat)).length = 4 ∧ (heardPort [d]).portUp 47 = true
    ∧ (heardPort [d]).portRuns 47 = true ∧ ((heardPort [d, l]).lport 47).rxq = d :: [l] ∧ d.kind = 1 ∧ d.good = true
    ∧ d.seq = ((heardPort [d]).lport 47).rxSeq ∧ (goodFlit 1 0 []).kind = 1 ∧ (goodFlit 1 0 []).good = true
    ∧ (goodFlit 1 0 []).seq ≠ ((heardPort [d]).lport 47).rxSeq ∧ bad.kind = 1 ∧ bad.good = false
    ∧ l.kind = 3 ∧ l.good = true ∧ bitOf (byteAt l.payload 0) 1 = false
    ∧ (∀ u ∈ ((heardPort [l]).lport 47).unacked, u.seq ≠ l.ack ∧ u.replays < 15) := by decide +kernel

/-- The TAG flit of that segment, and one with another tag and count. -/
def tagFlit : RxFlit :=
  goodFlit 2 127 (segmentTag 1 [] 0 1 (segmentText 1 [] 0 0 (fitBytes 64 [2])) ++ toLE 8 0 ++ toLE 1 1)
def wrongTag : RxFlit := goodFlit 2 127 (toLE 24 0 ++ toLE 1 2)

theorem test_tag_flit_hyps :
    (heardPort [tagFlit]).portRuns 47 = true ∧ tagFlit.kind = 2 ∧ tagFlit.good = true
    ∧ tagFlit.seq = ((heardPort [tagFlit]).lport 47).rxSeq ∧ ((heardPort [tagFlit]).lport 47).segmentOk tagFlit = true
    ∧ byteAt (segmentText 1 [] 0 0 (segmentText 1 [] 0 0 (fitBytes 64 [2]))) 0 % 4 = 2 ∧ (heardPort [tagFlit]).portUp 47 = true := by
  decide +kernel

theorem test_wrong_tag_hyps :
    (heardPort [wrongTag]).portRuns 47 = true ∧ wrongTag.kind = 2 ∧ wrongTag.good = true
    ∧ wrongTag.seq = ((heardPort [wrongTag]).lport 47).rxSeq
    ∧ ((heardPort [wrongTag]).lport 47).segmentOk wrongTag = false := by decide +kernel

theorem test_link_timer_hyps :
    let u : SentFlit := { seq := 5, kind := 1, payload := [], replays := 15 }
    let s := withPort { unacked := [u], ackedAt := 998000, acceptedAt := 990000 } ready
    let m := s.setLport 46 { scanning := some (3, 9) }
    let r := s.setLport 45 { state := portRetrain, work := some (.retrain 1 0 0 0 0), keys := some {}, manifest := [0] }
    s.portRuns 47 = true ∧ (s.lport 47).unacked ≠ [] ∧ (∃ u ∈ (s.lport 47).unacked, 15 ≤ u.replays) ∧ s.portUp 47 = true
    ∧ (s.lport 47).ackedAt + 2000 ≤ s.now ∧ (s.lport 47).acceptedAt + 10000 ≤ s.now
    ∧ (∀ x ∈ [{ u with replays := 14 }], x.replays < 15)
    ∧ (s.lport 47).scanning = none ∧ m.portUp 46 = false ∧ (m.lport 46).scanning = some (3, 9)
    ∧ (r.lport 45).state = portRetrain ∧ (r.lport 45).work = some (.retrain 1 0 0 0 0) ∧ (r.lport 45).keyed = true
    ∧ (r.lport 45).manifest ≠ [] := by decide +kernel

/-- A port in training sends whatever its lanes owe; of one in service, a lane that owes 100 symbols still owes more than 64
after a superframe. -/
theorem test_stuff_debt_hyps :
    let s := withPort { txLanes := List.replicate 4 { debt := 100 } } ready
    let q := ready.setLport 46 { state := portIdentify }
    q.portRuns 46 = true ∧ q.portUp 46 = false ∧ s.portRuns 47 = true ∧ s.portUp 47 = true
    ∧ ∀ symbols : Nat → List Nat,
      let sent := (List.range 4).map fun l => sendFrame ((((s.lport 47).txLanes)[l]?).getD {}) (symbols l)
      (if (sent[3]?).any (fun x => decide (64 < x.1.debt)) then some 3
        else sent.findIdx? fun x => decide (64 < x.1.debt)) = some 3 := by
  refine ⟨by decide, by decide, by decide, by decide, fun symbols => ?_⟩
  have h := sendFrame_debt_ge { debt := 100 } (symbols 3)
  exact if_pos (decide_eq_true (Nat.lt_of_lt_of_le (by decide) h))

theorem test_training_frame_hyps :
    let f : TrainFrame := { lane := 3, bytes := [3, 0, 0, 64, 0, 0, 0, 0] ++ toLE 2 (flitCrc [3, 0, 0, 64, 0, 0, 0, 0]), done := true,
                            aligned := some 1024 }
    let st := fun (x : Nat) => ready.setLport 47 { state := x, work := some (.train 0x1701) }
    (st portDetect).islandHalted (92 + 47) = false ∧ ((st portDetect).lport 47).work = some (.train 0x1701) ∧ f.lane < 4
    ∧ byteAt f.bytes 0 = f.lane ∧ fieldAt f.bytes 8 2 = flitCrc (f.bytes.take 8) ∧ f.fails = false
    ∧ ((st portDetect).lport 47).state = portDetect ∧ ((st portEqualise).lport 47).state = portEqualise ∧ f.done = true
    ∧ bitOf (byteAt f.bytes 3) 6 = true ∧ ((st portAlign).lport 47).state = portAlign ∧ f.aligned = some 1024
    ∧ { f with aligned := some 1025 }.aligned = some 1025 := by decide +kernel

theorem test_identify_hyps :
    let i : PartnerIdentity := { key := unitKey, ephemeral := unitKey, signature := unitSigned (sha384 unitKey) }
    let s := ready.setLport 47 { state := portIdentify, work := some (.train 0x1701), ephemeral := some 0 }
    (s.lport 47).keys = none ∧ (s.lport 47).state = portIdentify ∧ (s.lport 47).work = some (.train 0x1701)
    ∧ s.sealed.entropyFailed = false ∧ s.sealed.unlocked = none ∧ (s.agreedKeys 47 true i).isSome = true
    ∧ s.agreedKeys 47 false i = none := by decide +kernel

theorem test_training_hyps :
    let st := fun (x : Nat) (w : PortWork) => ready.setLport 47 { state := x, work := some w }
    let m : Bytes := toLE 1 1 ++ toLE 1 7 ++ List.replicate 106 0
    let i := ready.setLport 47 { state := portIdentify, work := some (.train 0x1701), keys := some {}, arrived := [(clsMgmt, m)] }
    let g := ready.setLport 47 { scanning := some (3, 9) }
    ((st portRetrain (.retrain 1 0 0 0 0)).lport 47).state = portRetrain ∧ ((st portRetrain (.retrain 1 0 0 0 0)).lport 47).keys = none
    ∧ (i.lport 47).keyed = true ∧ (i.lport 47).state = portIdentify ∧ (i.lport 47).work = some (.train 0x1701)
    ∧ (i.lport 47).arrived = (clsMgmt, m) :: [] ∧ byteAt m 0 = 1
    ∧ i.compatible m ((i.lport 47).identity == i.flash.identity) = false
    ∧ State.compatible { i with cohort := { i.cohort with member := 3 } } (toLE 1 1 ++ toLE 1 7 ++ List.replicate 6 0
        ++ State.ownManifest { i with cohort := { i.cohort with member := 3 } }) true = true
    ∧ ((st portQualify .qualify).lport 47).state = portQualify ∧ ((st portQualify .qualify).lport 47).work = some .qualify
    ∧ (g.lport 47).scanning = some (3, 9) := by decide +kernel

/-! ### Cohort -/

/-- A REQ (Table 18-3). -/
def reqOf (op src flags dst n window : Nat) (offset epoch : Nat) : Bytes :=
  toLE 1 op ++ toLE 1 9 ++ toLE 1 (src + flags) ++ toLE 1 dst ++ toLE 2 n ++ toLE 1 window ++ toLE 1 0 ++ toLE 8 offset ++ toLE 8 epoch

theorem test_remote_request_hyps :
    let st := fun (b : Bytes) => withPort { arrived := [(clsReq, b)], member := 5 } { ready with
      cohort := { member := 3, blob := List.replicate 24 0 ++ toLE 8 8, inWin := ⟨[(255, { member := 63, r := true, base := 4096, len := 64 })]⟩ } }
    let f := reqOf 1 4 0 5 64 255 0 0
    let n := reqOf 1 4 0 6 64 255 0 0
    let r := reqOf 1 4 64 5 64 255 0 0
    let bad := reqOf 4 63 0 3 64 255 0 0
    let old := reqOf 1 63 0 3 64 255 0 7
    let far := reqOf 1 63 0 3 64 255 1 0
    let ok := reqOf 1 63 0 3 64 255 0 0
    (st f).portTalks 47 = true ∧ (∀ i ∈ (st f).cohort.inbound, i.port ≠ 47) ∧ ((st f).lport 47).arrived = (clsReq, f) :: []
    ∧ (parseReq f).dst ≠ (st f).cohort.member ∧ (st f).boot.device ≠ .lost ∧ (parseReq f).relayed = false ∧ (st f).mayRelay = true
    ∧ (st f).relayPort (parseReq f).dst (parseReq f).offset = some 47 ∧ (st n).relayPort (parseReq n).dst (parseReq n).offset = none
    ∧ (parseReq r).relayed = true ∧ (parseReq bad).dst = (st bad).cohort.member ∧ 3 < (parseReq bad).op
    ∧ (parseReq old).epoch ≠ (st old).cohort.epoch.toNat ∧ (parseReq far).epoch = (st far).cohort.epoch.toNat
    ∧ (st far).reqStatus (parseReq far) = some cplNoWindow ∧ (st ok).reqStatus (parseReq ok) = none := by decide +kernel

theorem test_remote_answer_hyps :
    let e : XEntry := { ast := 0, page := 0, r := true, w := true, a := true, target := .polder 0 0 }
    let j : XJob := { requester := 0, engine := 0, unit := 0, fn := 0, ast := 0, need := [], got := [e] }
    let i := fun (op : Nat) => (⟨47, { parseReq (reqOf op 63 0 3 64 255 0 0) with data := List.replicate 64 1 }, 0, 4⟩ : InboundReq)
    let st := fun (op : Nat) => { withPort {} (paged []) with
      cohort := { member := 3, inbound := [i op] }, xlat := { (paged []).xlat with jobs := ⟨[(4, j)]⟩ } }
    (st 1).portTalks 47 = true ∧ (st 1).inboundHead 47 = some (i 1) ∧ (st 1).boot.device ≠ .lost ∧ (st 1).xlat.jobs.get? 4 = some j
    ∧ j.remark = false ∧ j.status = .ready ∧ (st 1).inboundPlaces (i 1) = [(⟨0, 0, 64⟩, .polder 0 0)]
    ∧ (st 1).placeDpa (.polder 0 0) = some 0 ∧ (st 1).inboundWaits (i 1) = false
    ∧ (st 2).inboundHead 47 = some (i 2) ∧ (st 2).inboundPlaces (i 2) = [(⟨0, 0, 64⟩, .polder 0 0)]
    ∧ (st 2).inboundWaits (i 2) = false := by decide +kernel

theorem test_remote_completion_hyps :
    let b := fun (src dst status : Nat) => toLE 1 0 ++ toLE 1 255 ++ toLE 1 src ++ toLE 1 dst ++ toLE 2 0 ++ toLE 1 status
    let u : RemoteReq := ⟨47, 255, 1, 64, .unit 0x1000⟩
    let r : RemoteReq := { u with user := .red 0 5 }
    let p : RemoteReq := { u with user := .pump 511 3 0 0 }
    let o : SeqOp := { id := 5, cls := 3, index := 0, work := .red 0 0 0 1 1 [] true (some 2) none }
    let pc : Piece := { tile := 0, len := 64, write := true }
    let d : PDesc := { index := 3, raw := [4] ++ List.replicate 63 0, dispatched := true, pieces := [pc] }
    let st := fun (x : RemoteReq) (msg : Bytes) => { withPort { arrived := [(clsCpl, msg)] } ((programState { ops := [o] }).setPchan 511
      { kind := .host, descs := [d] }) with cohort := { member := 3, reqs := [x], relayed := [⟨47, 255, 7, 46⟩] } }
    let f := st u (b 7 9 0)
    (st u (b 7 3 0)).portTalks 47 = true ∧ ((st u (b 7 3 0)).lport 47).arrived = (clsCpl, b 7 3 0) :: []
    ∧ byteAt (b 7 3 0) 3 % 64 = (st u (b 7 3 0)).cohort.member
    ∧ (st u (b 7 3 0)).cohort.reqs.find? (fun r => r.port == 47 && r.tag == byteAt (b 7 3 0) 1) = some u
    ∧ (st u (b 7 3 0)).cohort.waiting = []
    ∧ (st r (b 7 3 0)).cohort.reqs.find? (fun r => r.port == 47 && r.tag == byteAt (b 7 3 0) 1) = some r
    ∧ ((st r (b 7 3 0)).sq 0).ops.find? (fun o => o.id == 5) = some o
    ∧ (st p (b 7 3 1)).cohort.reqs.find? (fun r => r.port == 47 && r.tag == byteAt (b 7 3 1) 1) = some p
    ∧ byteAt (b 7 3 1) 6 ≠ 0 ∧ (st p (b 7 3 1)).descAt 511 3 = some d ∧ d.pieces.find? (fun x => x.tile == 0) = some pc
    ∧ (parseDesc d.raw).isTx = true ∧ ((st p (b 7 3 1)).pchan 511).halt = none
    ∧ byteAt (b 7 9 0) 3 % 64 ≠ f.cohort.member ∧ f.boot.device ≠ .lost
    ∧ f.cohort.relayed.find? (fun r => r.outPort == 47 && r.tag == byteAt (b 7 9 0) 1 && r.src == byteAt (b 7 9 0) 3 % 64) = none
    ∧ (st u (b 9 7 0)).cohort.relayed.find? (fun r => r.outPort == 47 && r.tag == byteAt (b 9 7 0) 1
        && r.src == byteAt (b 9 7 0) 3 % 64) = some ⟨47, 255, 7, 46⟩
    ∧ bitOf (byteAt (b 73 7 0) 2) 6 = true ∧ bitOf (byteAt (b 9 7 0) 2) 6 = false := by decide +kernel

theorem test_cohort_time_hyps :
    let q : Bytes := toLE 1 2 ++ toLE 1 0 ++ toLE 2 1 ++ List.replicate 28 0
    let a : Bytes := toLE 1 2 ++ toLE 1 1 ++ toLE 2 1 ++ toLE 4 0 ++ toLE 8 900000 ++ toLE 8 950000 ++ toLE 8 960000
    let st := fun (m : Bytes) => { withPort { arrived := [(clsMgmt, m)] } ready with
      cohort := { member := 3, leader := 7, leaderPort := portUnit 47, times := ⟨[(47, { number := 1, sentAt := some 900000 })]⟩ } }
    let f := { ready with cohort := { member := 3, leader := 7, leaderPort := 0xFFFF } }
    (st q).portTalks 47 = true ∧ ((st q).lport 47).arrived = (clsMgmt, q) :: [] ∧ byteAt q 0 = 2 ∧ byteAt q 1 = 0
    ∧ ((st a).lport 47).arrived = (clsMgmt, a) :: [] ∧ byteAt a 0 = 2 ∧ byteAt a 1 ≠ 0
    ∧ ((st a).cohort.times.get {} 47).sentAt = some (fieldAt a 8 8) ∧ ((st a).cohort.times.get {} 47).number = fieldAt a 2 2
    ∧ (st a).steersBy 47 = true ∧ (st a).steersBy 46 = false ∧ f.steersBy syncSource = true ∧ (st a).steersBy syncSource = false
    ∧ (let g := { f with cohort := { f.cohort with lastEdge := some f.now } }
       g.steersBy syncSource = true ∧ g.cohort.lastEdge = some f.now ∧ g.now < f.now + 10000000
       ∧ (State.steersBy { g with clk := { g.clk with tbase := g.clk.tbase + 10000000 } } syncSource = true)) := by
  decide +kernel

/-- The same exchange by hand (R829, R832): t2 - t1 = 50000, t4 - t3 = 40000, an offset of 5000 ns, corrected at the limit. -/
theorem test_cohort_time_answer :
    let a : Bytes := toLE 1 2 ++ toLE 1 1 ++ toLE 2 1 ++ toLE 4 0 ++ toLE 8 900000 ++ toLE 8 950000 ++ toLE 8 960000
    let s := { withPort { arrived := [(clsMgmt, a)] } ready with
      cohort := { member := 3, leader := 7, leaderPort := portUnit 47, times := ⟨[(47, { number := 1, sentAt := some 900000 })]⟩ } }
    gives (exec (.timeMessage 47) s) fun t => t.cohort.estimate == 5000 && t.cohort.correction == 50000 := by decide +kernel

/-! ### Host functions, security, service -/

theorem test_bar2_hyps :
    let s := { paged [] with host := { vfs := 127, fns := ⟨[(0, { bar2 := ⟨[(0, { enable := true, w := true }), (255, { lowHeld := some 7 })]⟩ })]⟩ } }
    let v := BitVec.ofNat 64 (2 ^ 63)
    let lost := { s with boot := { s.boot with device := .lost } }
    s.barUp 0 = true ∧ s.barUp 127 = true ∧ 255 < slotLimit 0 ∧ 0 < slotLimit 127 ∧ bitOf v.toNat 63 = true ∧ bitsOf v.toNat 0 8 = 0
    ∧ s.polder? 0 = some nearPolder ∧ s.assignedFn (polderUnit 0) = 0 ∧ bitsOf v.toNat 8 11 < nearPolder.size
    ∧ s.polder? 1 = none ∧ nearPolder.size ≤ 2047 ∧ s.assignedFn (polderUnit 0) ≠ 127
    ∧ ((s.hostFn 0).bar2.get {} 255).lowHeld = some 7
    ∧ ((s.hostFn 0).bar2.get {} 1).enable = false ∧ 0xFFFF000 + 4096 ≤ 0x10000000 ∧ 0xFFFF000 % 4096 + 4096 ≤ 4096
    ∧ ((s.hostFn 0).bar2.get {} 0).enable = true ∧ ((s.hostFn 0).bar2.get {} 0).w = true
    ∧ s.polder? ((s.hostFn 0).bar2.get {} 0).polder = some nearPolder ∧ s.boot.device ≠ .lost ∧ lost.boot.device = .lost
    ∧ ((State.linesTouched nearPolder (0 * 0x10000000 + 0) 64).any s.lineWaits) = false := by decide +kernel

theorem test_function_hyps :
    let s := { serving with host := { vfs := 3 } }
    s.barUp 0 = true ∧ s.barUp 3 = true ∧ s.boot.config = .full ∧ 127 ≤ 127 ∧ s.host.vfs ≤ 127 ∧ s.host.vfs ≤ 3 ∧ 0 < s.host.vfs
    ∧ 2 < s.host.vfs ∧ s.hostFn 1 = {} := by decide +kernel

theorem test_security_hyps :
    let x : IdeStream := { state := .secure, keys := ⟨[(0, 1)]⟩ }
    let s := { ready with host := { ide := ⟨[(0, x), (255, {})]⟩, spdmSession := true, spdmHandshake := true } }
    let f := { ready with sealed := { ready.sealed with entropyFailed := true } }
    s.host.ide.get? 0 = some x ∧ s.islandHalted islHost = false ∧ s.host.ide.get? 255 = some {} ∧ ({} : IdeStream).state ≠ .secure
    ∧ s.doeUp = true ∧ s.sealed.unlocked = none ∧ s.host.spdmSession = true ∧ ready.host.spdmSession = false ∧ ready.doeUp = true
    ∧ s.host.ide.get? 1 = none ∧ s.sealed.entropyFailed = false ∧ f.sealed.entropyFailed = true ∧ f.doeUp = true
    ∧ SpdmNeeds (.challenge 0) = true ∧ s.host.spdmHandshake = true ∧ 5 ≤ ready.boot.step ∧ 15 % 8 ≠ 0 ∧ ready.canReport = true
    ∧ (State.reset.canReport = false) ∧ { x with keys := ⟨[(0, 1), (1, 2), (2, 3), (8, 4), (9, 5), (10, 6)]⟩ }.keyed = true := by
  decide +kernel

theorem test_stripe_move_hyps :
    let d := { paged [] with svc := { serving.svc with states := serving.svc.states.set (chanUnit 0) .draining } }
    let d := d.setChan 0 { used := 1 }
    let d := { d with kym := { d.kym with running := [{ opcode := 0x1902, cmd := cmd [], ref := chanUnit 0 }] } }
    let m := { d with svc := { d.svc with moving := ⟨[(0, 0)]⟩ } }
    m.canReport = true ∧ m.runningOn 0x1902 (chanUnit 0) = true ∧ m.chanLost 0 = false ∧ m.capped 0 = false ∧ m.unitState (chanUnit 0) = .draining ∧ m.svc.moving.get? 0 = some 0 ∧ (m.moveTarget 0 0).isSome = true
    ∧ (m.mem.polders.find? (fun _ p => p.place.any fun _ w => w == 0)) = some (0, nearPolder)
    ∧ m.islandHalted (stampIsland (chanUnit 0)) = false
    ∧ (m.moveTarget 0 0).all (fun t => !m.islandHalted (stampIsland (chanUnit t)) && (m.freePiece t).isSome) = true
    ∧ (∀ x ∈ m.xlat.invals, x.cause ≠ .move 0 1) ∧ d.svc.moving.get? 0 = none ∧ d.nextPiece 0 = some 0
    ∧ (d.moveTarget 0 0).all (fun t => !d.islandHalted (stampIsland (chanUnit t))) = true
    ∧ (List.range 48).filter d.holdsEntries ≠ [] := by decide +kernel

theorem test_service_end_hyps :
    let u := { serving with svc := { serving.svc with states := serving.svc.states.set (seqUnit 0) .draining
                                                      testing := ⟨[(chanUnit 0, (1, 9))]⟩ } }
    let d := { serving with svc := { serving.svc with states := (serving.svc.states.set (chanUnit 0) .draining).set (State.engineUnit 31) .draining } }
    let d := { d with kym := { d.kym with running := [{ opcode := 0x1902, cmd := cmd [], ref := chanUnit 0 },
                                                       { opcode := 0x1902, cmd := cmd [], ref := State.engineUnit 31 }] } }
    let w := d.setChan 0 { used := 1 }
    d.canReport = true ∧ d.drainRuns (chanUnit 0) = true ∧ d.drainRuns (State.engineUnit 31) = true ∧ w.drainRuns (chanUnit 0) = true
    ∧ u.testEnds (chanUnit 0) = true ∧ d.unitState (chanUnit 0) = .draining ∧ ownStates (unitClass (chanUnit 0)) = true ∧ d.drained (chanUnit 0) = true
    ∧ w.drained (chanUnit 0) = false ∧ d.unitState (State.engineUnit 31) = .draining ∧ ownStates (unitClass (State.engineUnit 31)) = true
    ∧ d.drained (State.engineUnit 31) = true ∧ u.svc.testing.get? (chanUnit 0) = some (1, 9) := by decide +kernel

/-! ### Sequencers -/

/-- Sequencer 0 starts instruction `i` of its program. -/
def startOf (i : SInstr) (q : Sequencer := {}) : State := programState q (encodeSeq i)

/-- Every instruction, at bounds of its fields, is one that a sequencer may start. -/
theorem test_issue_hyps :
    (∀ i ∈ [SInstr.nop, .jal 31 0xFFFFFFFF, .jalr 31 31 0x80000000, .br 31 0 5 8191, .bri 31 5 0xFFFF 0xFFFF, .sel 31 30 29 28, .fin,
            .alu 31 31 31 15, .alui 0 31 15 0xFFFFFFFF, .li 31 0x80000000, .lih 0 0xFFFFFFFF, .lds 31 0 3 false 0, .sts 0 31 3 0,
            .ld 31 0 3 false 2 0, .st 0 31 3 1 0, .ldPair 30 0 2 0, .stPair 0 30 1 0, .pref 0 2 0, .pumpIss 31 0 0, .gathIss 31 0 0 7,
            .infIss 31 0], Issues (startOf i) 0 i)
    ∧ (∀ i ∈ [SInstr.red 0 0 1 2 true 1 0, .red 0 0 1 0 false 1 0, .grant 0, .strmBind 0 7 1 0 0 0, .strmSend 31 0 true 0 7 1,
              .strmRecv 31 0 0 7 1, .fence 0x3F, .tokAcq 0 0xFFFFFFFF, .tokRel 0 0, .sigPost 0 0 false 31, .sigPost 0 0 true 31,
              .sigWait 31 0xFFFF, .sigRead 31 31, .slotWait 0 0, .slotLen 0 0xFFFFFFFF, .slotGet 31, .timeGet 0, .csrRd 31 4,
              .dbgMark 0 0, .dbgStop], Issues (startOf i) 0 i)
    ∧ (∀ i ∈ [SInstr.dbgMark 0 0, .dbgStop, .lds 31 0 3 false 0], Issues (startOf i { debug := true }) 0 i)
    ∧ Unhindered (startOf .nop) 0
    ∧ (programState {} 0x62).mayIssue 0 = true ∧ decodeSeq ((programState {} 0x62).wordAt 0) = none := by decide +kernel

theorem test_blocking_hyps :
    let o : SeqOp := { id := 5, cls := 4, index := 0 }
    let e := fun (s : State) => withCaddy { smallCaddy with state := 4, program := 1, envelope := 8, bound := some ⟨[0], [0], [511], [0], [0], 0⟩ } s
    let a := fun (n : Nat) => e (startOf (.tokAcq 0 n))
    let held := { a 8 with prog := { (a 8).prog with seqs := (a 8).prog.seqs.set 63 { held := 713, program := 9, state := .running, caddy := some 9 } } }
    ((startOf .fin { ops := [o] }).sq 0).ops ≠ [] ∧ ((startOf .fin).sq 0).ops = []
    ∧ (∃ x ∈ ((startOf (.fence 16) { ops := [o] }).sq 0).ops, bitOf 16 x.cls = true)
    ∧ (∀ x ∈ ((startOf (.fence 15) { ops := [o] }).sq 0).ops, bitOf 15 x.cls = false)
    ∧ Bank.sorted (a 8).prog.seqs.cells = true ∧ (((a 8).sq 0).reg 0).toNat + 8 = 8
    ∧ ((a 8).inf.caddies.get? ((a 8).slotOf 0)).map (·.envelope) = some 8
    ∧ (a 8).heldBy ((a 8).sq 0).program + 8 ≤ 8 ∧ (a 9).heldBy ((a 9).sq 0).program + 9 > 8 ∧ (a 8).heldTokens + 8 ≤ (a 8).pool
    ∧ Bank.sorted held.prog.seqs.cells = true ∧ held.heldBy (held.sq 0).program + 8 ≤ 8 ∧ held.heldTokens + 8 > held.pool
    ∧ held.islandHalted islPmgr = false ∧ Issues held 0 (.tokAcq 0 8) ∧ (held.sq 0).fresh.get? 0 = none
    ∧ 5 ≤ ((startOf (.sigWait 31 5) { counters := ⟨[(31, 5)]⟩ }).sq 0).counters.get 0 31
    ∧ ((startOf (.sigWait 31 5) { counters := ⟨[(31, 4)]⟩ }).sq 0).counters.get 0 31 < 5
    ∧ (startOf (.ld 31 0 3 false 2 0)).seqPlace 0 none 2 0 ≠ .outside ∧ (startOf (.ld 31 0 3 false 2 0)).seqPlace 0 none 2 0x30000000 = .outside := by
  decide +kernel

theorem test_end_hyps :
    let b : Binding := ⟨[0], [0, 1], [511], [0], [0], 0⟩
    let s := withCaddy { smallCaddy with state := 4, program := 1, bound := some b } (startOf .fin)
    let w := withCaddy { smallCaddy with state := 4, program := 1, bound := some b } (programState {} 0 |>.modSq 0 fun x => { x with wait := some .finish })
    ((s.bindingOf 0).seqs.all fun r => r == 0 || (s.sq r).ended) = false
    ∧ w.islandHalted 0 = false ∧ (w.sq 0).wait = some .finish ∧ (w.sq 0).ops = [] ∧ (w.sq 0).caddy = some 0
    ∧ (w.inf.caddies.get? 0).isSome = true ∧ (∃ r ∈ b.seqs, r ≠ 0 ∧ (w.sq r).ended = false)
    ∧ (∀ r ∈ b.seqs, r ≠ 0 → (State.sq (w.modSq 1 fun x => { x with ended := true }) r).ended = true) := by decide +kernel

theorem test_scratch_hyps :
    let o : SeqOp := { id := 5, cls := 0, index := 0, writes := [⟨4, 8, 8⟩] }
    let l := startOf (.lds 31 0 3 false 0xFFF8)
    let h := startOf (.lds 31 0 3 false 8) { debug := true, ops := [o] }
    ea (l.sq 0).reg 0 0xFFF8 3 ≤ 0xFFFF ∧ ea (l.sq 0).reg 0 0x10000 3 > 0xFFFF ∧ (l.sq 0).badIn 0xFFF8 (2 ^ 3) = false
    ∧ (∀ k, k < 2 ^ 3 → (l.sq 0).owned (0xFFF8 + k) = none)
    ∧ ((startOf .nop { badWords := [8191] }).sq 0).badIn 0xFFF8 (2 ^ 3) = true
    ∧ Issues h 0 (.lds 31 0 3 false 8) ∧ (h.sq 0).debug = true ∧ o ∈ (h.sq 0).ops ∧ (⟨4, 8, 8⟩ : Span) ∈ o.writes
    ∧ (⟨4, 8, 8⟩ : Span).meets ⟨4, ea (h.sq 0).reg 0 8 3, 2 ^ 3⟩ = true
    ∧ clearLow ((l.sq 0).reg 0) 4 ≤ 0xFFFF := by decide +kernel

theorem test_store_hyps :
    let s := startOf (.st 0 31 3 2 0)
    let full := startOf (.st 0 31 3 2 0) { ops := (List.range 32).map fun i => { id := i, cls := 5, index := 0 } }
    s.seqPlace 0 none 2 (ea (s.sq 0).reg 0 0 3) ≠ .outside ∧ s.seqPlace 0 none 2 (ea (s.sq 0).reg 0 0x30000000 3) = .outside
    ∧ ((s.sq 0).ops.filter fun o => o.cls == 5).length < 32 ∧ 32 ≤ ((full.sq 0).ops.filter fun o => o.cls == 5).length
    ∧ s.seqPlace 0 none 1 (ea (fun _ => BitVec.ofNat 64 scratchBase) 1 0 0) = .scratch scratchBase ∧ s.seqPlace 0 none 2 (ea (s.sq 0).reg 0 0 0) = .polder 0 0
    ∧ s.placeWaits (.polder 0 0) 128 = false := by decide +kernel

theorem test_unit_issue_hyps :
    let p := startOf (.pumpIss 31 0 0)
    let g := { startOf (.gathIss 31 0 0 0) { held := 2 } with d2d := { clusters := ⟨[(0, { caddy := some 0, bindings := ⟨[(14, .gather 0)]⟩ })]⟩ } }
    let i := startOf (.infIss 31 0) { held := 40 }
    (p.bindingOf 0).chans[0]? = some 511 ∧ (p.bindingOf 0).chans[1]? = none ∧ p.isHostChan 511 = false
    ∧ ((p.pchan 511).descs.filter fun d => !d.completed).length < 16
    ∧ clearLow ((p.sq 0).reg 0) 6 ≤ 0xFFFF ∧ (p.sq 0).badIn 0 64 = false ∧ (∀ k, k < 64 → (p.sq 0).owned (0 + k) = none)
    ∧ byteAt ((g.sq 0).read 0 64) 1 ≤ 63 ∧ g.ownsLane 0 (64 * 0 + 0) = true ∧ 2 ≤ (g.sq 0).spare ∧ (p.sq 0).spare < 2
    ∧ (g.lane 0).jobs.length < 5 ∧ p.ownsLane 0 (64 * 0 + 0) = false
    ∧ i.infOpen ≠ [] ∧ i.infChoice.isSome = true ∧ 40 ≤ (i.sq 0).spare ∧ (p.sq 0).spare < 40 := by decide +kernel

theorem test_red_issue_hyps :
    let o : SeqOp := { id := 5, cls := 3, index := 0, work := .red 2 0 0 1 1 [] true none none }
    let s := startOf (.red 0 0 1 2 true 1 0) { held := 4 }
    let w := startOf (.red 0 0 1 2 true 1 0) { held := 4, ops := [o] }
    let e : XEntry := { ast := 0, page := 0, r := true, w := true, a := true, target := .polder 0 0 }
    let j : XJob := { requester := 0, engine := 0, unit := 0, fn := 0, ast := 0, need := [], got := [e] }
    let k := startOf (.red 0 0 1 0 false 1 0) { held := 4, redJob := some 3 }
    let k := { k with xlat := { k.xlat with jobs := ⟨[(3, j)]⟩, spaces := ⟨[(0, ⟨0, 0, false, 0⟩)]⟩ } }
    s.redTrap 0 2 0 0 1 1 0 = none ∧ s.redTrap 0 2 0x30000000 0 1 1 0 ≠ none ∧ s.orderedOut 0 = false ∧ w.orderedOut 0 = true
    ∧ s.redsOut 0 = [] ∧ 4 ≤ (s.sq 0).spare ∧ w.redsOut 0 ≠ [] ∧ (w.redsOut 0).length < 64 ∧ operandBytes 1 1 ≤ 8
    ∧ (∀ a, a < 8 → (s.sq 0).owned (0 + a) = none)
    ∧ (k.sq 0).redJob = some 3 ∧ k.xlat.jobs.get? 3 = some j ∧ j.remark = false ∧ j.status = .ready
    ∧ k.redTrap 0 0 0 0 1 1 0 = none ∧ k.seqPlace 0 (some 3) 0 0 = .polder 0 0 := by decide +kernel

theorem test_stream_hyps :
    let st := fun (i : SInstr) => { startOf i with d2d := { clusters := ⟨[(0, { bindings := ⟨[(14, .seq 0), (15, .seq 0)]⟩ })]⟩ } }
    let g := startOf (.grant 1) { held := 2, regs := ⟨[(1, 1)]⟩ }
    let b := startOf (.strmBind 0 7 1 0 0 0)
    let n := { startOf (.tokRel 0 2) { held := 2 } with prog := { (startOf (.tokRel 0 2) { held := 2 }).prog with queue := [] } }
    (List.range 64).filter (fun j => bitOf ((g.sq 0).reg 1).toNat j) = [0] ∧ (g.bindingOf 0).clusters.length = 1
    ∧ (g.port 0).grant.isNone = true ∧ 2 * 1 ≤ (g.sq 0).spare ∧ ((startOf (.grant 1) { regs := ⟨[(1, 1)]⟩ }).sq 0).spare < 2
    ∧ 2 ≤ ((startOf (.grant 1) { regs := ⟨[(1, 2)]⟩ }).sq 0).reg 1
    ∧ (b.bindingOf 0).clusters[0]? = some 0 ∧ (b.bindTarget 0 0 0 0).isSome = true ∧ (b.bindingOf 0).clusters[1]? = none
    ∧ (b.bindTarget 0 0 0 0).all (fun e => (b.boundTo e 1).isNone) = true ∧ b.endpointOf 0 7 1 = none
    ∧ (st (.strmSend 31 0 true 0 7 1024)).ownStream 0 0 7 0 = some 0 ∧ b.ownStream 0 0 7 0 = none
    ∧ clearLow (b.sq 0 |>.reg 0) 6 + 64 * 1024 ≤ 0x10000 ∧ (b.sq 0).badIn 0 (64 * 1024) = false
    ∧ (b.sq 0).ops = []
    ∧ (st (.strmRecv 31 0 0 7 1)).ownStream 0 0 7 1 = some 0 ∧ ((st (.strmRecv 31 0 0 7 1)).port 0).inbox.get [] 7 = []
    ∧ 2 ≤ (n.sq 0).held - (n.sq 0).inUse ∧ (b.sq 0).held - (b.sq 0).inUse < 2
    ∧ (b.bindingOf 0).seqs[0]? = some 0 ∧ (b.bindingOf 0).seqs[63]? = none := by decide +kernel

/-- Sequencer 0 runs and waits. -/
def waiting (w : SeqWait) (q : Sequencer := {}) : State := programState { q with wait := some w } 0

theorem test_start_hyps :
    let a := (programState {} 0).modSq 0 fun x => { x with state := .armed, startAt := 1000000, start := some ⟨0, 1, 1, 8191, true, 16⟩ }
    let o : SeqOp := { id := 5, cls := 4, index := 0, work := .send 0 7 0 [[], []] true }
    let p := programState { ops := [o] } 0
    a.islandHalted 0 = false ∧ (a.sq 0).state = .armed ∧ (a.sq 0).start.isSome = true ∧ (a.sq 0).startAt ≤ a.follower 0
    ∧ ((programState {} 0).sq 0).state = .running ∧ ((programState {} 0).sq 0).ops = [] ∧ ((programState {} 0).sq 0).stopping = false
    ∧ ((programState { stopping := true } 0).sq 0).stopping = true ∧ (programState {} 0).boot.device ≠ .lost
    ∧ ((programState {} 0).sq 0).wait = none ∧ ((waiting (.slot 1)).sq 0).wait = some (.slot 1)
    ∧ ((waiting (.slot 2)).sq 0).slots + 1 < 2 ∧ 1 ≤ ((waiting (.slot 1)).sq 0).slots + 1 ∧ ((waiting (.slot 1)).sq 0).stopping = false
    ∧ (p.sq 0).ops = [o] ∧ o.work = .send 0 7 0 ([] :: [[]]) true ∧ o.done = none := by decide +kernel

theorem test_grant_load_hyps :
    let g := { waiting (.token 8) with prog := { (waiting (.token 8)).prog with queue := [⟨0, 8⟩] } }
    let full := { g with prog := { g.prog with seqs := g.prog.seqs.set 63 { held := 713 } } }
    let l := waiting (.load 1 scratchBase 3 true false 31)
    let pr := waiting (.load 1 scratchBase 4 false true 30)
    let m := waiting (.load 2 0 3 true false 31)
    let bad := { l with basin := l.basin.set 0 { (l.slice 0) with badWords := [scratchBase / 8] } }
    g.islandHalted islPmgr = false ∧ g.prog.queue = ⟨0, 8⟩ :: [] ∧ g.heldTokens + 8 ≤ g.pool ∧ full.pool < full.heldTokens + 8
    ∧ Bank.sorted g.prog.seqs.cells = true ∧ Bank.sorted full.prog.seqs.cells = true
    ∧ (l.sq 0).wait = some (.load 1 scratchBase 3 true false 31) ∧ l.seqPlace 0 none 1 scratchBase = .scratch scratchBase
    ∧ l.lineBusy 0 (l.sq 0).nextOp (.scratch scratchBase) = false ∧ (l.scratchRead scratchBase (2 ^ 3)).bad = none
    ∧ (bad.scratchRead scratchBase (2 ^ 3)).bad ≠ none ∧ bad.seqPlace 0 none 1 scratchBase = .scratch scratchBase
    ∧ (pr.sq 0).wait = some (.load 1 scratchBase 4 false true 30) ∧ pr.seqPlace 0 none 1 scratchBase = .scratch scratchBase
    ∧ pr.lineBusy 0 (pr.sq 0).nextOp (.scratch scratchBase) = false ∧ (pr.scratchRead scratchBase 16).bad = none
    ∧ (m.sq 0).wait = some (.load 2 0 3 true false 31) ∧ m.seqPlace 0 none 2 0 = .polder 0 0 ∧ m.placeWaits (.polder 0 0) (2 ^ 3) = false
    ∧ m.lineBusy 0 (m.sq 0).nextOp (.polder 0 0) = false ∧ (m.polderRead 0 0 (2 ^ 3) true).2.bad = none := by decide +kernel

theorem test_completion_hyps :
    let o : SeqOp := { id := 5, cls := 0, index := 0, counter := some 31, scratch := 8, done := some { record := [1], trap := none } }
    let t : SeqOp := { o with done := some { record := [1], trap := some { cause := 0x0B } } }
    let st : SeqOp := { id := 5, cls := 5, index := 0, work := .store 1 scratchBase [1] }
    let r : SeqOp := { id := 5, cls := 3, index := 0, work := .red 2 0 0 1 1 [] true none (some false) }
    let p := programState { ops := [st] } 0
    let s := { waiting (.signal 31 3) with prog := { (waiting (.signal 31 3)).prog with posts := [⟨63, 0, 31, 3⟩] } }
    let f := programState { ops := [o], wait := some (.fence [4]) } 0
    ((programState { ops := [o] } 0).sq 0).ops.find? (fun o => o.id == 5) = some o
    ∧ ((programState { ops := [t] } 0).sq 0).ops.find? (fun o => o.id == 5) = some t ∧ o.work = .unit ∧ o.counter = some 31
    ∧ ((programState { ops := [o] } 0).sq 0).wait = none
    ∧ (p.sq 0).ops.find? (fun o => o.id == 5) = some st ∧ p.seqPlace 0 none 1 scratchBase = .scratch scratchBase
    ∧ p.lineBusy 0 st.id (.scratch scratchBase) = false
    ∧ ((programState { ops := [r] } 0).sq 0).ops.find? (fun o => o.id == 5) = some r ∧ p.islandHalted 0 = false
    ∧ s.prog.posts.find? (fun p => p.src == 63 && p.dst == 0) = some ⟨63, 0, 31, 3⟩ ∧ (s.sq 0).wait = some (.signal 31 3)
    ∧ 3 ≤ min 65535 ((s.sq 0).counters.get 0 31 + 3) ∧ s.islandHalted 0 = false
    ∧ (f.sq 0).wait = some (.fence [4]) ∧ (∀ x ∈ (f.sq 0).ops, x.id ∉ [4])
    ∧ (∃ x ∈ (f.sq 0).ops, x.id ∈ [5, 4]) ∧ f.islandHalted 0 = false := by decide +kernel

theorem test_step_hyps :
    ({ ready with pending := [.opNop 0, .opNop 1] } : State).pending = .opNop 0 :: [.opNop 1] ∧ (paged []).mem.wf = true
    ∧ State.reset.pending = [] ∧ State.reset.clk.wardenLocked = false := by decide +kernel

theorem test_step_answers : ∃ t, step (paged []) = .next t := ⟨_, rfl⟩

/-- At rest a warden tick passes; with the pump engine of a row on a crossing back in its clock, that row arrives. -/
theorem test_idle_hyps :
    let s := { ready with clk := { ready.clk with crossings := ⟨[(31, { fifo := [.opNop 0, .opNop 1] })]⟩ } }
    ready.pending = [] ∧ ready.nextCrossing = none ∧ ready.nextServed = none ∧ ready.engineWaiting = none
    ∧ ready.clk.wardenLocked = true ∧ ready.islandHalted islWarden = false ∧ ready.cohort.correction = 0
    ∧ ready.cohort.residue.natAbs < 100000000
    ∧ s.pending = [] ∧ s.nextCrossing = some (31, .opNop 0, [.opNop 1]) := by decide +kernel

theorem test_crossing_row_answers :
    ∃ t, exec (.opNop 0) (State.setCrossing { ready with clk := { ready.clk with
      crossings := ⟨[(31, { fifo := [.opNop 0, .opNop 1] })]⟩ } } 31 []) = .next t := ⟨_, rfl⟩

theorem test_sequencer_rule_hyps :
    (SInstr.red 31 31 6 2 true 32 4095).wf = true ∧ (SInstr.strmSend 31 31 true 63 7 1024).wf = true
    ∧ decodeSeq 0x0000000200000040 = some (.tokAcq 0 2)
    ∧ Issues (startOf (.sigWait 31 0)) 0 (.sigWait 31 0)
    ∧ ((startOf (.sigPost 0 0 false 31)).sq 0).reg 0 = 0 ∧ ((startOf (.sigPost 0 0 false 31)).sq 0).fresh.get? 0 = none
    ∧ ((startOf .nop).bindingOf 0).seqs[0]?.isSome = true ∧ ((startOf .nop).bindingOf 0).clusters[0]?.isSome = true
    ∧ Issues (startOf (.fence 0)) 0 (.fence 0) ∧ Issues (startOf (.slotWait 0 1)) 0 (.slotWait 0 1) := by decide +kernel

/-! ### Published vectors: FIPS 197 C.3, GCM test case 13 of its submission, FIPS 180 "abc" -/

theorem test_aes_vector :
    (cipherBlock (roundKeys (List.range 32)) ((List.range 16).map fun i => 17 * i)).map (BitVec.ofNat 8)
      = toBE 16 0x8EA2B7CA516745BFEAFC49904B496089 := by decide +kernel

theorem test_gcm_vector : gcmTag 0 (List.replicate 12 0) [] [] = toBE 16 0x530F8AFBC74536B9A963B4F1C4CB738B := by decide +kernel

theorem test_sha_vector : sha384 [0x61, 0x62, 0x63]
    = toBE 48 0xCB00753F45A35E8BB5A03D699AC65007272C32AB0EDED1631A8B605A43FF5BED8086072BA1E7CC2358BAECA134C825A7 := by
  decide +kernel

/-! ### Ill-formed operands are refused -/

/-- A well-formed Kymal entry, and one a byte short. -/
def okCmd : KCmd := cmd []
def shortCmd : KCmd := { okCmd with payload := List.replicate 111 0 }

/-- A fault in a word that no line and no scratch has. -/
def badWord : List WordFault := [{ word := 8192, double := false, check := false, syndrome := 0 }]

/-- Four lanes with a symbol each, three lanes, and a level that PAM4 has not. -/
def lanes4 : List (List Nat) := [[0], [1], [2], [3]]
def lanes3 : List (List Nat) := [[0], [1], [2]]
def level4 : List (List Nat) := [[0], [1], [2], [4]]

theorem test_well_formed :
    ∀ i ∈ [Instr.pwrOkAssert, .polderCreate okCmd, .hello { okCmd with path := .queue 127 3 }, .opJal 63, .refresh 139,
           .d2dGroupReceived 255 (.lost 3 0x1FF 127), .drainEnd 0x2C3F, .controlLoop {}, .flitReceived 47 lanes4, .flitReceived 0 [],
           .eventCollect 0x1FFF 5 0 0, .testComplete 0x0C7F {}], i.wf = true := by decide +kernel

theorem test_ill_formed_kymal :
    ∀ i ∈ [Instr.hello shortCmd, .queueCreate { okCmd with path := .queue 128 0 }, .queueCreate { okCmd with path := .queue 0 4 },
           .leaseBreak { okCmd with path := .urgent 128 }, .queueAccessError { path := .queue 0 0, write := false, poison := false, addr := 2 ^ 64 },
           .queueAccessError { path := .queue 0 0, write := false, poison := false, addr := 0, taken := some (0x10000, okCmd) },
           .queueAccessError { path := .queue 0 0, write := false, poison := false, addr := 0, taken := some (1, shortCmd) },
           .queueAccessError { path := .queue 0 4, write := false, poison := false, addr := 0 },
           .sidebandKymalRequest (List.replicate 127 0) [] {}, .intakeTake (List.replicate 129 0) [] [] {},
           .intakeTake (List.replicate 128 0) [] [640] {}, .deferredFinalReply (.queue 0 4) 0 {}, .leaseBreakEffect (2 ^ 32),
           .kymCqDbWrite 128 0 0, .kymCqDbWrite 0 4 0, .kymRqDbWrite 0 4 0, .kymUrgDbWrite 128 0, .aqEnable 128, .aqDisable 128,
           .configRequest 128 (.read 0), .configRequest 0 (.retrain 0 1), .configRequest 0 (.retrain 1 3), .wardenCtrlRestart 128 0], i.wf = false := by decide +kernel

theorem test_ill_formed_platform :
    ∀ i ∈ [Instr.bootStepEnd { bondWires := [(128, 0, 0)] }, .bootStepEnd { uncalibrated := [128] }, .bootStepEnd { boardPairs := [(12, {})] },
           .bootStepEnd { boardFails := [(12, 32, 0, 0)] }, .bootStepEnd { dieWires := [(256, 0, 0)] },
           .bootStepEnd { untrainedPorts := [(256, 0, 0)] }, .bootStepEnd { badRefclk := [(4, 0)] },
           .eventCollect 0x2000 0 0 0, .eventCollect 0 6 0 0, .eventCollect 0 0 0x1000F 0, .eventCollect 0 0 0x4C01 0,
           .eventCollect 0 0 0x0040 0, .eventCollect 0 0 0 (2 ^ 96), .spillwayWrite 128, .evqHeadWrite 128 0,
           .msixVectorUnmask 0 (.unmask 2048), .msixVectorUnmask 128 (.unmask 0), .timeLoRead 128, .timeHiRead 128, .timeRead8b 128,
           .sbrBlockWrite 0x10000 none, .smbusArp 128, .registerWrite 0 0x10000 [], .registerWrite 0 0 (List.replicate 129 0),
           .registerWrite 128 0 [], .jtagSbrAccess 0x10000, .jtagTestrun none 0x0140, .islandDpllLockLoss 185, .islandDpllRelock 185,
           .dpllLockTimeout 185, .controlLoop { base := [(64, 0)] }, .controlLoop { sense := [(28, 0)] }, .controlLoop { stateLost := [4] }, .stackSensorReadout 8 [],
           .boardTempRead 12 0 0, .refresh 140, .thermTrip 8, .phaseOvercurrent 96, .psbIdentity 4 [] 0,
           .psbIdentity 0 (List.replicate 65 0) 0, .psbSensors 0 [] 65536, .psbClusterPower 4 [] 0, .psbGrants 4 [] 0,
           .dieHandshakeTimeout 4, .dthermNAssert 4 true], i.wf = false := by decide +kernel

theorem test_ill_formed_memory :
    ∀ i ∈ [Instr.narrowRead 0x10000000000 [], .narrowRead 0 [2304], .fullRead 0 [2304], .mergeWrite 0x10000000000 [] [],
           .mergeWrite 4095 [0, 0] [], .fullPageWrite 0 (List.replicate 4095 0), .mergeCommit 140 0, .boardAccessCrcFail 12 true 0 0,
           .patrolPage 140 [], .patrolPage 0 [2304], .liveRowRemap 128 0 0, .liveRowRemap 0 32 0, .liveRowRemap 0 0 16384,
           .stackReadoutSilent 8, .stackFailure 8 0 0 0 0, .stackFailure 0 0 128 0 0, .sluiceRedivision [64],
           .basinAccess ⟨.infuser, 127, 2, none, []⟩, .basinAccess ⟨.infuser, 127, 0, some [0, 0], []⟩,
           .basinAccess ⟨.infuser, 0, 1, none, badWord⟩, .lineFill .infuser 0x10000000000,
           .reducerOperation (.aperture 256 0), .reducerOperation (.aperture 0 256), .reducerOperation (.seq 64 0),
           .reducerOperation (.window 48 0 0), .reducerOperation (.window 0 65536 0), .reducerOperation (.window 0 0 65536),
           .pumpDbWrite 128 0 0 0, .pumpDbWrite 0 32 0 0, .pumpDbWrite 0 0 16 0, .pumpReadAhead 0 0 (List.replicate 63 0),
           .pumpDispatch 32 0, .hostReadCompletion 0 16 0 0 none, .descriptorComplete 32 0 0, .atsCompletion 4096 0 {},
           .prgResponse 128 0 .success, .prgResponse 0 512 .success, .atsInvalidateRequest 128 0 0 0 0, .atsInvalidateRequest 0 32 0 0 0,
           .atsInvalidateRequest 0 0 (2 ^ 20) 0 0, .engineInvalAck 48, .atsEnableClear 128, .priEnableClear 128,
           .completionTimeout (.ats 4096 0), .completionTimeout (.read 32 0 0 0), .completionTimeout (.read 0 16 0 0),
           .patrolRateWindow 140, .stripeMove 140 [], .stripeMove 0 [⟨0, [2304]⟩]], i.wf = false := by decide +kernel

theorem test_ill_formed_units :
    ∀ i ∈ [Instr.infuserJobStart 8 none, .infuserJobComplete 8, .gatherJobAccept 8 0 [], .gatherJobAccept 0 64 [], .gatherSlotRelease 0 64,
           .gatherSlotDeliver 8 0 none, .gatherJobComplete 0 64, .programStartTime 64, .slotBoundary 64, .seqLoadReturn 64 [],
           .seqLoadReturn 0 badWord, .operationCompletion 64 0, .redAckReceived 64 0, .signalArrival 64 0, .signalArrival 0 64,
           .fenceComplete 64, .endComplete 64, .opNop 64, .opLds 64 [], .opLds 0 badWord, .opRed 0 badWord, .invalidInstructionWord 64,
           .d2dGroupReceived 256 (.lost 0 0 0), .d2dGroupReceived 0 (.lost 4 0 0), .d2dGroupReceived 0 (.lost 0 512 0),
           .d2dGroupReceived 0 (.lost 0 0 128), .d2dGroupReceived 0 (.group (List.replicate 127 0) (List.replicate 6 0) 0 0),
           .d2dGroupReceived 0 (.group (List.replicate 128 0) [] 0 0),
           .d2dGroupReceived 0 (.group (List.replicate 128 0) (List.replicate 6 0) 65536 0), .apertureRequest 256 0 [], .apertureRequest 0 256 [],
           .apertureRequest 0 0 badWord, .apertureResponse 0 256, .signalMessage 256 0, .signalMessage 0 64, .trapMessage 256,
           .creditsMessage 256, .fetchRequest 256 0 0 [], .fetchRequest 0 (2 ^ 64) 0 [], .fetchRequest 0 0 512 [],
           .drainEnd 0x0040, .drainEnd 0x10000, .conversionPage 256, .testComplete 0x0040 {}, .testComplete 0 { misr := 2 ^ 64 },
           .testComplete 0x1C00 { ports := [(64, 0, 0)] }], i.wf = false := by decide +kernel

theorem test_ill_formed_links :
    ∀ i ∈ [Instr.flitReceived 48 [], .flitReceived 0 lanes3, .flitReceived 0 level4, .tagFlitReceived 48 [] [], .tagFlitReceived 0 lanes3 [], .tagFlitReceived 0 [] lanes3,
           .linkFlitReceived 48 [], .linkFlitReceived 0 level4, .replayTimeout 48, .partnerSilent 48, .linkRefclkLost 4, .linkRetrainEnd 48 true,
           .trainingFrame 48 { lane := 0, bytes := List.replicate 10 0 }, .trainingFrame 0 { lane := 4, bytes := List.replicate 10 0 },
           .trainingFrame 0 { lane := 0, bytes := [] }, .identifyExchange 48 true ⟨unitKey, unitKey, List.replicate 96 0⟩, .identifyExchange 0 true ⟨[], unitKey, List.replicate 96 0⟩,
           .identifyExchange 0 true ⟨unitKey, [], List.replicate 96 0⟩, .identifyExchange 0 true ⟨unitKey, unitKey, []⟩, .manifestMessage 48, .qualifyCheckerLock 0 4,
           .qualifyEnd 48 [], .marginScanEnd 0 4 ⟨0, [], [], []⟩, .marginScanEnd 0 0 ⟨0, List.replicate 65 0, [], []⟩,
           .marginScanEnd 0 0 ⟨0, [], List.replicate 65 0, []⟩, .remoteRequest 48 [], .remoteRequest 0 badWord, .remoteCompletion 48,
           .timeRequestSend 48, .timeMessage 48, .bar2Access 0 { offset := 0, len := 0 }, .bar2Access 0 { offset := 4095, len := 2 },
           .bar2Access 0 { offset := 0, len := 1, faults := badWord }, .bar2Access 128 { offset := 0, len := 1 }, .bar2MapWrite 0 256 (.low 0),
           .bar2MapWrite 128 0 (.low 0), .functionLevelReset 128, .vfEnable 128, .vfDisable 127, .ideMacFailure 8, .spdmRequest 256 .getVersion,
           .ideKmKeyProg ⟨8, true, 0, 0, 0⟩, .ideKmKeyProg ⟨0, true, 3, 0, 0⟩, .ideKmKeyProg ⟨0, true, 0, 2, 0⟩, .glitchDetect 8 true,
           .blockLockLost 0 4, .stuffDebtOverflow 48 0 1, .stuffDebtOverflow 0 4 1, .stuffDebtOverflow 0 0 0], i.wf = false := by decide +kernel

/-! ### Instruction words of chapter 15, by field: op 7:0, a 12:8, b 17:13, c 22:18, f 31:23, immediate 63:32 (Table 15-1) -/

theorem test_words_control :
    decodeSeq 0x01 = some .nop ∧ decodeSeq 0xFFFFFFFF00000002 = some (.jal 0 0xFFFFFFFF) ∧ decodeSeq 0x07 = some .fin
    ∧ decodeSeq (0x06 + 2 ^ 8 * 31 + 2 ^ 13 * 30 + 2 ^ 18 * 29 + 2 ^ 23 * 28) = some (.sel 31 30 29 28)
    ∧ decodeSeq (0x10 + 2 ^ 8 * 1 + 2 ^ 13 * 2 + 2 ^ 18 * 3 + 2 ^ 23 * 7) = some (.alu 1 2 3 7)
    ∧ decodeSeq (0x10 + 2 ^ 23 * 16) = none ∧ decodeSeq (0x01 + 2 ^ 8) = none := by decide +kernel

theorem test_words_memory :
    decodeSeq (0x18 + 2 ^ 8 * 1 + 2 ^ 13 * 2 + 2 ^ 23 * 6 + 2 ^ 32 * 8) = some (.lds 1 2 2 true 8)
    ∧ decodeSeq (0x20 + 2 ^ 8 * 1 + 2 ^ 13 * 2 + 2 ^ 23 * (3 + 8 * 2)) = some (.ld 1 2 3 false 2 0)
    ∧ decodeSeq (0x20 + 2 ^ 23 * 3) = none
    ∧ decodeSeq (0x21 + 2 ^ 13 * 2 + 2 ^ 18 * 3 + 2 ^ 23 * (1 + 8)) = some (.st 2 3 1 1 0)
    ∧ decodeSeq (0x22 + 2 ^ 8 * 4 + 2 ^ 23 * 8) = some (.ldPair 4 0 1 0) ∧ decodeSeq (0x22 + 2 ^ 8 * 5 + 2 ^ 23 * 8) = none := by
  decide +kernel

theorem test_words_issue :
    decodeSeq (0x30 + 2 ^ 8 * 3 + 2 ^ 13 * 4 + 2 ^ 23 * 63) = some (.pumpIss 3 4 63)
    ∧ decodeSeq (0x33 + 2 ^ 13 * 1 + 2 ^ 18 * 2 + 2 ^ 23 * (6 + 8 * 2 + 32) + 2 ^ 32 * (31 + 2 ^ 16 * 4095)) = some (.red 1 2 6 2 true 32 4095)
    ∧ decodeSeq (0x33 + 2 ^ 23 * 7) = none
    ∧ decodeSeq (0x38 + 2 ^ 23 * 0x3F) = some (.fence 0x3F) ∧ decodeSeq (0x38 + 2 ^ 23 * 0x40) = none
    ∧ decodeSeq (0x48 + 2 ^ 13 * 5 + 2 ^ 32 * 0xFC1) = some (.sigPost 5 1 true 31)
    ∧ decodeSeq (0x60 + 2 ^ 32 * 0xFFFF) = some (.dbgMark 0 0xFFFF) := by decide +kernel

end Sys2Proof.Tests
end

section
/-! SUPPORT. Sparse banks: sums over the entries after an insertion, and lookups after a filter. -/

namespace Sys2Proof.Bank

variable {α : Type}

theorem find_eq_none_of_above {l : List (Nat × α)} {i : Nat} (h : Above i l) : find l i = none := by
  induction l with
  | nil => rfl
  | cons c t ih =>
    have hc : c.1 ≠ i := Nat.ne_of_gt (h c (by simp))
    have ht : find t i = none := ih fun d hd => h d (by simp [hd])
    simp [find, hc, ht]

theorem sorted_set {b : Bank α} (i : Nat) (v : α) (h : sorted b.cells = true) : sorted (b.set i v).cells = true :=
  sorted_put i v h

theorem total_eq_sum (b : Bank α) (f : Nat → α → Nat) : b.total f = (b.cells.map fun c => f c.1 c.2).sum := by
  rw [total, List.sum_eq_foldl, List.foldl_map]

/-- In a rising list an insertion replaces one figure in the sum; an unlisted number counts as nothing. -/
theorem sum_put {l : List (Nat × α)} {i : Nat} {d : α} {f : Nat → α → Nat} (v : α) (h : sorted l = true)
    (hd : f i d = 0) :
    ((put l i v).map fun c => f c.1 c.2).sum + f i ((find l i).getD d) = (l.map fun c => f c.1 c.2).sum + f i v := by
  induction l with
  | nil => simp [put, find, hd]
  | cons c t ih =>
    obtain ⟨k, w⟩ := c
    obtain ⟨hk, ht⟩ := (sorted_iff k w t).1 h
    rcases Nat.lt_trichotomy i k with hlt | rfl | hgt
    · have hn : find ((k, w) :: t) i = none := find_eq_none_of_above fun c hc => by
        rcases List.mem_cons.1 hc with rfl | hc
        · exact hlt
        · exact Nat.lt_trans hlt (hk c hc)
      simp [put, hlt, hn, hd]; omega
    · simp [put, find]; omega
    · have hih := ih ht
      simp [put, find, Nat.ne_of_lt hgt, Nat.ne_of_gt hgt, Nat.not_lt.2 (Nat.le_of_lt hgt)]; omega

theorem total_set {b : Bank α} {i : Nat} {d : α} {f : Nat → α → Nat} (v : α) (h : sorted b.cells = true)
    (hd : f i d = 0) : (b.set i v).total f + f i (b.get d i) = b.total f + f i v := by
  rw [total_eq_sum, total_eq_sum]
  exact sum_put v h hd

theorem find_filter_none {l : List (Nat × α)} {i : Nat} (p : Nat × α → Bool) (h : find l i = none) :
    find (l.filter p) i = none := by
  induction l with
  | nil => rfl
  | cons c t ih =>
    have hc : c.1 ≠ i := fun hc => by simp [find, hc] at h
    have ht : find (t.filter p) i = none := ih (by simpa [find, hc] using h)
    rw [List.filter_cons]
    split
    · simp [find, hc, ht]
    · exact ht

theorem get?_keep_none {b : Bank α} {i : Nat} (p : Nat → α → Bool) (h : b.get? i = none) : (b.keep p).get? i = none :=
  find_filter_none _ h

/-- In a rising list what a filter leaves at a number is what stood there. -/
theorem find_filter_some {l : List (Nat × α)} {i : Nat} {p : Nat × α → Bool} {v : α} (hs : sorted l = true)
    (h : find (l.filter p) i = some v) : find l i = some v := by
  induction l with
  | nil => exact h
  | cons c t ih =>
    obtain ⟨hc, ht⟩ := (sorted_iff c.1 c.2 t).1 hs
    rw [List.filter_cons] at h
    by_cases hi : c.1 = i
    · have hn : find t i = none := find_eq_none_of_above (hi ▸ hc)
      split at h
      · simpa [find, hi] using h
      · simp [find_filter_none p hn] at h
    · have hf : find (t.filter p) i = some v := by
        split at h
        · simpa [find, hi] using h
        · exact h
      simpa [find, hi] using ih ht hf

theorem get?_keep_some {b : Bank α} {i : Nat} {p : Nat → α → Bool} {v : α} (hs : sorted b.cells = true)
    (h : (b.keep p).get? i = some v) : b.get? i = some v := find_filter_some hs h

end Sys2Proof.Bank
end

section
/-! SUPPORT. Sequencers in the state: what an update of one leaves of the others, of the token sums and of every other
part, what sending a group leaves alone, and the opcode of a decoded word. -/

namespace Sys2Proof.Machine

namespace State

section SetSq
variable (s : State) (x : Sequencer)

@[simp] theorem sq_setSq_same (q : Nat) : (s.setSq q x).sq q = x := Bank.get_set_same ..

@[simp] theorem sq_setSq_other {p q : Nat} (h : p ≠ q) : (s.setSq q x).sq p = s.sq p := Bank.get_set_other _ _ _ h

@[simp] theorem setSq_queue (q : Nat) : (s.setSq q x).prog.queue = s.prog.queue := rfl

end SetSq

theorem setSq_sorted {s : State} (q : Nat) (x : Sequencer) (h : Bank.sorted s.prog.seqs.cells = true) :
    Bank.sorted (s.setSq q x).prog.seqs.cells = true := Bank.sorted_set q x h

theorem heldTokens_setSq {s : State} (q : Nat) (x : Sequencer) (h : Bank.sorted s.prog.seqs.cells = true) :
    (s.setSq q x).heldTokens + (s.sq q).held = s.heldTokens + x.held :=
  Bank.total_set (i := q) (d := ({} : Sequencer)) (f := fun _ (y : Sequencer) => y.held) x h rfl

theorem heldBy_setSq {s : State} (q p : Nat) (x : Sequencer) (h : Bank.sorted s.prog.seqs.cells = true) :
    (s.setSq q x).heldBy p + (if (s.sq q).program = p then (s.sq q).held else 0)
      = s.heldBy p + if x.program = p then x.held else 0 :=
  Bank.total_set (i := q) (d := ({} : Sequencer)) (f := fun _ (y : Sequencer) => if y.program = p then y.held else 0) x h
    (ite_self 0)

end State

/-- A frame by computation: each part outside the list reads off the new state what it reads off the old one. -/
theorem Only.of_kept_eq {ps : List Part} {s t : State} (hp : t.pending = s.pending)
    (h : ∀ p, p ∉ ps → p.kept s t = p.kept s s) : Only ps s t :=
  ⟨hp, fun p hn => (h p hn).symm ▸ p.kept_refl s⟩

namespace State

theorem withProg_only (s : State) (p : Programs) : Only [.prog] s { s with prog := p } :=
  Only.of_kept_eq rfl fun x hx => by
    cases x with
    | prog => simp at hx
    | _ => rfl

theorem setPort_only (s : State) (c : Nat) (p : ClusterPort) : Only [.d2d] s (s.setPort c p) :=
  Only.of_kept_eq rfl fun x hx => by
    cases x with
    | d2d => simp at hx
    | _ => rfl

theorem putGroup_only (s : State) (c : Nat) (g : Group) (nak : Bool) : Only [.d2d, .out] s (s.putGroup c g nak) :=
  (setPort_only s c _).trans (emit_only _ _)

theorem drain_only (fuel c : Nat) (s : State) : Only [.d2d, .out] s (drain fuel c s) := by
  induction fuel generalizing s with
  | zero => exact Only.refl _ s
  | succ fuel ih =>
    unfold drain
    dsimp only
    split
    · exact Only.refl _ s
    · exact Only.comp (Only.mono ((setPort_only s c _).trans (putGroup_only _ c _ false)) (by simp)) (ih _)

theorem sendGroups_only (s : State) (c : Nat) (gs : List Group) : Only [.d2d, .out] s (s.sendGroups c gs) := by
  unfold sendGroups
  dsimp only
  split
  · exact Only.refl _ s
  · exact Only.mono ((setPort_only s c _).trans (drain_only _ c _)) (by simp)

end State

/-- The opcode of a decoded word is that of the instruction's own word (Table 15-2). -/
theorem decodeSeq_opcode {w : Nat} {i : SInstr} (h : decodeSeq w = some i) : encodeSeq i % 256 = w % 256 := by
  simp only [decodeSeq, fieldsOf] at h
  split at h
  case h_40 => cases h
  all_goals
    obtain ⟨-, hi⟩ := Option.ite_none_right_eq_some.1 h
    cases hi
    simp only [encodeSeq, packFields]
    omega

end Sys2Proof.Machine
end

section
/-! SUPPORT. The registers of a sequencer, and issuing an instruction that touches neither scratch nor memory. -/

namespace Sys2Proof.Machine

namespace Sequencer

section Registers
variable (x : Sequencer)

@[simp] theorem reg_zero : x.reg 0 = 0 := rfl

@[simp] theorem setReg_zero (v : BitVec 64) : x.setReg 0 v = x := rfl

@[simp] theorem reg_result_zero (v : BitVec 64) (lat j : Nat) : (x.result 0 v lat).reg j = x.reg j := by
  simp [result, reg]

end Registers

section Elapse
variable (x : Sequencer) (c : Nat)

@[simp] theorem elapse_reg (i : Nat) : (x.elapse c).reg i = x.reg i := rfl
@[simp] theorem elapse_pc : (x.elapse c).pc = x.pc := rfl
@[simp] theorem elapse_state : (x.elapse c).state = x.state := rfl
@[simp] theorem elapse_wait : (x.elapse c).wait = x.wait := rfl
@[simp] theorem elapse_caddy : (x.elapse c).caddy = x.caddy := rfl
@[simp] theorem elapse_program : (x.elapse c).program = x.program := rfl
@[simp] theorem elapse_debug : (x.elapse c).debug = x.debug := rfl
@[simp] theorem elapse_slots : (x.elapse c).slots = x.slots := rfl
@[simp] theorem elapse_late : (x.elapse c).late = x.late := rfl
@[simp] theorem elapse_held : (x.elapse c).held = x.held := rfl

theorem elapse_fresh : (x.elapse c).fresh
    = (x.fresh.keep fun _ f => decide (c < f.left)).map fun _ (f : Fresh) => { f with left := f.left - c } := rfl

theorem elapse_fresh_empty {x : Sequencer} (h : x.fresh = {}) : (x.elapse c).fresh = {} := by
  rw [elapse_fresh, h]; rfl

theorem elapse_fresh_none {x : Sequencer} {i : Nat} (h : x.fresh.get? i = none) : (x.elapse c).fresh.get? i = none := by
  simp [elapse_fresh, Bank.get?_keep_none _ h]

end Elapse

theorem view_of_settled {x : Sequencer} {i : Nat} (ctr : Nat) (h : x.fresh.get? i = none) : x.view ctr i = x.reg i := by
  simp [view, h]

theorem view_of_unsettled {x : Sequencer} {i : Nat} {f : Fresh} (ctr : Nat) (h : x.fresh.get? i = some f) :
    x.view ctr i = if Config.freeNat (ctr + i) % 2 = 1 then x.reg i else f.old := by
  simp [view, h]

/-- A register reads as its value, or as the value before it while that is unsettled (R668). -/
theorem view_cases (x : Sequencer) (ctr i : Nat) :
    x.view ctr i = x.reg i ∨ ∃ f, x.fresh.get? i = some f ∧ x.view ctr i = f.old := by
  cases hf : x.fresh.get? i with
  | none => exact .inl (view_of_settled ctr hf)
  | some f =>
    rw [view_of_unsettled ctr hf]
    split
    · exact .inl rfl
    · exact .inr ⟨f, rfl, rfl⟩

end Sequencer

/-- The state in which an instruction is carried out: its cycles have passed (R667). -/
def started (s : State) (q : Nat) (i : SInstr) : State := s.modSq q fun x => x.elapse i.cycles

/-- The registers as the instruction reads them. -/
def issueView (s : State) (q : Nat) (i : SInstr) : View := ((started s q i).sq q).view s.freeCtr

/-- What issuing leaves once the instruction was carried out: no hold, and free values used up where any could be. -/
def issued (s : State) (q : Nat) (i : SInstr) (t : State) : State :=
  let u := t.modSq q fun y => { y with hold := none }
  if ((started s q i).sq q).fresh.cells.isEmpty && ((started s q i).sq q).ops.isEmpty then u
  else { u with freeCtr := u.freeCtr + 131072 }

section Issue
variable {s : State} {q : Nat} {i : SInstr}

@[simp] theorem started_sq (s : State) (q : Nat) (i : SInstr) : (started s q i).sq q = (s.sq q).elapse i.cycles :=
  s.sq_setSq_same _ q

@[simp] theorem issued_sq (s : State) (q : Nat) (i : SInstr) (t : State) :
    (issued s q i t).sq q = { t.sq q with hold := none } := by
  have h : (t.modSq q fun y => { y with hold := none }).sq q = { t.sq q with hold := none } := t.sq_setSq_same _ q
  unfold issued
  dsimp only
  split
  · exact h
  · exact h

@[simp] theorem issued_queue (s : State) (q : Nat) (i : SInstr) (t : State) :
    (issued s q i t).prog.queue = t.prog.queue := by
  unfold issued
  dsimp only
  split <;> rfl

theorem holdRegs_of_settled (h : (s.sq q).fresh = {}) : s.holdRegs q i = s := by
  have hn : (i.reads.findSome? fun r => (s.sq q).fresh.get? r) = none := by
    simp [h, Bank.get?, Bank.find]
  simp [State.holdRegs, hn]

theorem conflict_noTouch (x : Sequencer) : State.conflict x {} = none := by simp [State.conflict]

/-- Issuing an instruction that touches neither scratch nor memory carries it out at once, or leaves it waiting (R624). -/
theorem issue_noTouch {op : Nat} {run : State → View → SInstr → Option State} (h : Issues s q i)
    (hop : encodeSeq i % 256 = op) :
    s.issue q op [] noTouch run = ((run (started s q i) (issueView s q i) i).map (issued s q i)).getD s := by
  obtain ⟨hmay, hdec, hreg⟩ := h
  have hword : s.wordAt q % 256 = op := (decodeSeq_opcode hdec).symm.trans hop
  have hready : (if (s.sq q).debug then (started s q i).holdRegs q i else started s q i) = started s q i := by
    split
    · next hd =>
      have hf : (s.sq q).fresh = {} := hreg.resolve_left (by simp [hd])
      exact holdRegs_of_settled (by rw [started_sq]; exact Sequencer.elapse_fresh_empty _ hf)
    · rfl
  have hfaults : s.scratchFaults q [] = s := rfl
  unfold State.issue
  simp only [hmay, hword, hdec, hfaults, noTouch, conflict_noTouch, ite_self, ne_eq, not_true_eq_false, decide_false,
    Bool.not_true, Bool.or_self, Bool.false_eq_true, if_false]
  rw [show (s.modSq q fun x => x.elapse i.cycles) = started s q i from rfl, hready]
  cases hrun : run (started s q i) (issueView s q i) i with
  | none =>
    rw [issueView] at hrun
    simp only [hrun, Option.map_none, Option.getD_none]
  | some t =>
    rw [issueView] at hrun
    simp only [hrun, Option.map_some, Option.getD_some, issued]

/-- An instruction's registers read as R668 has it: those not settled once its cycle has passed had the same value before
them when it was issued, as long as no number is listed twice. -/
theorem reads_issueView (h : Bank.sorted (s.sq q).fresh.cells = true) : Reads s q (issueView s q i) := by
  intro r
  rcases Sequencer.view_cases ((started s q i).sq q) s.freeCtr r with hv | ⟨f, hf, hv⟩
  · exact .inl (hv.trans (by simp))
  · rw [started_sq, Sequencer.elapse_fresh, Bank.get?_map] at hf
    obtain ⟨g, hg, rfl⟩ := Option.map_eq_some_iff.1 hf
    exact .inr ⟨g, Bank.get?_keep_some h hg, hv⟩

theorem issueView_of_settled {b : Nat} (h : (s.sq q).fresh.get? b = none) : issueView s q i b = (s.sq q).reg b := by
  rw [issueView, started_sq, Sequencer.view_of_settled _ (Sequencer.elapse_fresh_none _ h), Sequencer.elapse_reg]

end Issue

/-- Settles O10: register 0 is special in the read and in the write, and `result` writes through `setReg`. -/
theorem registerZeroReadsZero : Obligations.RegisterZeroReadsZero := by
  unfold Obligations.RegisterZeroReadsZero
  exact ⟨Sequencer.reg_zero, fun x v lat => ⟨x.setReg_zero v, x.reg_result_zero v lat⟩⟩

end Sys2Proof.Machine
end

section
/-! PROOF of O14. Token requests wait and are granted whole and in order. -/

namespace Sys2Proof.Machine

/-! ### Requests that wait (R643) -/

section TokAcq
variable {s : State} {q : Nat} {i : SInstr}

theorem heldTokens_started (h : Bank.sorted s.prog.seqs.cells = true) : (started s q i).heldTokens = s.heldTokens :=
  Nat.add_right_cancel (State.heldTokens_setSq q ((s.sq q).elapse i.cycles) h)

theorem heldBy_started (p : Nat) (h : Bank.sorted s.prog.seqs.cells = true) :
    (started s q i).heldBy p = s.heldBy p :=
  Nat.add_right_cancel (State.heldBy_setSq q p ((s.sq q).elapse i.cycles) h)

@[simp] theorem slotOf_started : (started s q i).slotOf q = s.slotOf q := by simp [State.slotOf]

@[simp] theorem pool_started : (started s q i).pool = s.pool := rfl

@[simp] theorem islandHalted_started (j : Nat) : (started s q i).islandHalted j = s.islandHalted j := rfl

@[simp] theorem started_queue : (started s q i).prog.queue = s.prog.queue := rfl

@[simp] theorem started_inf : (started s q i).inf = s.inf := rfl

/-- The sequencer waits, its request stands last in the queue of the power manager, and the first wait of its program is
reported (R643, R196). -/
def queueRequest (s : State) (q n : Nat) : State :=
  let x := s.sq q
  let first := !s.prog.waitReported.contains x.program
  let u := s.setSq q { x with wait := some (.token n), waitFrom := s.now }
  let u := { u with prog := { u.prog with
    queue := u.prog.queue ++ [⟨q, n⟩], tokenWaits := u.prog.tokenWaits + 1,
    waitReported := if first then x.program :: u.prog.waitReported else u.prog.waitReported } }
  if first then u.raise 0x0301 sevNotice (seqUnit q) [(32, x.program), (16, n), (16, u.pool), (16, u.heldTokens)] else u

@[simp] theorem queueRequest_sq (s : State) (q n : Nat) :
    (queueRequest s q n).sq q = { s.sq q with wait := some (.token n), waitFrom := s.now } := by
  unfold queueRequest
  dsimp only
  split <;> exact s.sq_setSq_same _ q

@[simp] theorem queueRequest_queue (s : State) (q n : Nat) :
    (queueRequest s q n).prog.queue = s.prog.queue ++ [⟨q, n⟩] := by
  unfold queueRequest
  dsimp only
  split <;> rfl

/-- A request that its envelope allows and the pool does not fit is queued. -/
theorem opTokAcq_queues {b imm n : Nat} {c : Caddy} (h : Issues s q (.tokAcq b imm))
    (hs : Bank.sorted s.prog.seqs.cells = true) (hn : tokens (issueView s q (.tokAcq b imm)) b imm = n) (hn0 : n ≠ 0)
    (hc : s.inf.caddies.get? (s.slotOf q) = some c) (henv : s.heldBy (s.sq q).program + n ≤ c.envelope)
    (hclk : s.islandHalted islPmgr = false) (hpool : s.pool < s.heldTokens + n) :
    exec (.opTokAcq q) s
      = .next (issued s q (.tokAcq b imm) (queueRequest (started s q (.tokAcq b imm)) q n)) := by
  have hexec : exec (.opTokAcq q) s = execOpTokAcq q s := rfl
  have henv' : ¬ c.envelope < s.heldBy (s.sq q).program + n := Nat.not_lt.2 henv
  have hpool' : ¬ s.heldTokens + n ≤ s.pool := Nat.not_le.2 hpool
  rw [hexec, execOpTokAcq, issue_noTouch h (by simp only [encodeSeq, packFields]; omega)]
  simp only [hn, hn0, started_sq, Sequencer.elapse_program, slotOf_started, started_inf, hc, heldBy_started _ hs,
    heldTokens_started hs, pool_started, islandHalted_started, hclk, Bool.and_false, Bool.false_eq_true, if_false,
    henv', hpool']
  simp only [queueRequest, started_sq, Sequencer.elapse_program, Option.map_some, Option.getD_some]

end TokAcq

/-! ### Grants (R642, R643) -/

/-- The first request of the queue is granted in full, and its sequencer goes on. -/
def grantFirst (s : State) (r : TokenReq) (rest : List TokenReq) : State :=
  State.modSq { s with prog := { s.prog with queue := rest } } r.seq fun x =>
    { x with held := x.held + r.n, wait := none, pc := (x.pc + 1) % 8192, waited := x.waited + (s.now - x.waitFrom) }

/-- The tokens that a list of requests asks for. -/
def tokensAsked (l : List TokenReq) : Nat := (l.map (·.n)).foldr (· + ·) 0

@[simp] theorem tokensAsked_cons (r : TokenReq) (l : List TokenReq) : tokensAsked (r :: l) = r.n + tokensAsked l := rfl

/-- The first `n` requests of the queue have been granted in full, and nothing else has happened. -/
structure Granted (n : Nat) (s t : State) : Prop where
  queue : t.prog.queue = s.prog.queue.drop n
  held : t.heldTokens = s.heldTokens + tokensAsked (s.prog.queue.take n)
  fits : 0 < n → t.heldTokens ≤ s.pool
  stuck : ∀ r rest, t.prog.queue = r :: rest → s.pool < t.heldTokens + r.n
  each : ∀ q, (t.sq q).held = (s.sq q).held + tokensAsked ((s.prog.queue.take n).filter fun r => r.seq == q)
  others : ∀ q, (∀ r ∈ s.prog.queue.take n, r.seq ≠ q) → t.sq q = s.sq q
  frame : Only [.prog] s t

section GrantFirst
variable {s : State} {r : TokenReq} {rest : List TokenReq}

theorem grantTokens_cons (fuel : Nat) (h : s.prog.queue = r :: rest) :
    State.grantTokens (fuel + 1) s
      = if s.heldTokens + r.n ≤ s.pool then State.grantTokens fuel (grantFirst s r rest) else s := by
  rw [State.grantTokens, h]
  rfl

theorem grantTokens_nil (fuel : Nat) (h : s.prog.queue = []) : State.grantTokens fuel s = s := by
  cases fuel with
  | zero => rfl
  | succ fuel => rw [State.grantTokens, h]

@[simp] theorem grantFirst_queue : (grantFirst s r rest).prog.queue = rest := rfl

@[simp] theorem grantFirst_pool : (grantFirst s r rest).pool = s.pool := rfl

theorem grantFirst_sorted (h : Bank.sorted s.prog.seqs.cells = true) :
    Bank.sorted (grantFirst s r rest).prog.seqs.cells = true := State.setSq_sorted r.seq _ h

theorem grantFirst_heldTokens (h : Bank.sorted s.prog.seqs.cells = true) :
    (grantFirst s r rest).heldTokens = s.heldTokens + r.n := by
  have hset : (grantFirst s r rest).heldTokens + (s.sq r.seq).held = s.heldTokens + ((s.sq r.seq).held + r.n) :=
    State.heldTokens_setSq (s := { s with prog := { s.prog with queue := rest } }) r.seq _ h
  omega

theorem grantFirst_sq_held (q : Nat) :
    ((grantFirst s r rest).sq q).held = (s.sq q).held + if r.seq = q then r.n else 0 := by
  by_cases hq : r.seq = q
  · subst hq
    rw [if_pos rfl]
    exact congrArg Sequencer.held (State.sq_setSq_same _ _ r.seq)
  · rw [if_neg hq]
    exact congrArg Sequencer.held (State.sq_setSq_other _ _ (Ne.symm hq))

theorem grantFirst_sq_other {q : Nat} (h : r.seq ≠ q) : (grantFirst s r rest).sq q = s.sq q :=
  State.sq_setSq_other _ _ h.symm

theorem grantFirst_only : Only [.prog] s (grantFirst s r rest) := State.withProg_only s _

end GrantFirst

/-- Nothing is granted: the queue is empty, or its first request does not fit. -/
theorem Granted.none {s : State} (h : ∀ r rest, s.prog.queue = r :: rest → s.pool < s.heldTokens + r.n) :
    Granted 0 s s where
  queue := rfl
  held := rfl
  fits h := absurd h (Nat.lt_irrefl 0)
  stuck := h
  each _ := rfl
  others _ _ := rfl
  frame := Only.refl _ s

/-- The first request fits and is granted, and then `n` more. -/
theorem Granted.first {s t : State} {r : TokenReq} {rest : List TokenReq} {n : Nat} (hq : s.prog.queue = r :: rest)
    (hs : Bank.sorted s.prog.seqs.cells = true) (hfit : s.heldTokens + r.n ≤ s.pool)
    (h : Granted n (grantFirst s r rest) t) : Granted (n + 1) s t where
  queue := by rw [h.queue, hq]; rfl
  held := by rw [h.held, grantFirst_heldTokens hs, hq]; simp [Nat.add_assoc]
  fits _ := by
    rcases Nat.eq_zero_or_pos n with rfl | hn
    · rw [h.held, grantFirst_heldTokens hs]; exact hfit
    · exact h.fits hn
  stuck := h.stuck
  each q := by
    rw [h.each, grantFirst_sq_held, hq, List.take_succ_cons, grantFirst_queue]
    by_cases hr : r.seq = q
    · simp [hr, Nat.add_assoc]
    · simp [hr]
  others q hother := by
    rw [hq, List.take_succ_cons, List.forall_mem_cons] at hother
    exact (h.others q hother.2).trans (grantFirst_sq_other hother.1)
  frame := grantFirst_only.comp h.frame

theorem grantTokens_granted {fuel : Nat} {s : State} (hfuel : s.prog.queue.length ≤ fuel)
    (hs : Bank.sorted s.prog.seqs.cells = true) : ∃ n, Granted n s (State.grantTokens fuel s) := by
  induction fuel generalizing s with
  | zero =>
    have hq : s.prog.queue = [] := List.length_eq_zero_iff.1 (Nat.le_zero.1 hfuel)
    exact ⟨0, .none fun r rest h => by simp [hq] at h⟩
  | succ fuel ih =>
    cases hq : s.prog.queue with
    | nil =>
      rw [grantTokens_nil _ hq]
      exact ⟨0, .none fun r rest h => by simp [hq] at h⟩
    | cons r rest =>
      rw [grantTokens_cons fuel hq]
      split
      · next hfit =>
        have hlen : (grantFirst s r rest).prog.queue.length ≤ fuel := by simpa [hq] using hfuel
        obtain ⟨n, hn⟩ := ih hlen (grantFirst_sorted hs)
        exact ⟨n + 1, .first hq hs hfit hn⟩
      · next hfit =>
        refine ⟨0, .none fun r' rest' h => ?_⟩
        obtain ⟨rfl, -⟩ := List.cons.inj (hq.symm.trans h)
        exact Nat.not_le.1 hfit

/-- Settles O14: a request that does not fit is queued, and by induction on the queue the power manager grants some first
part of it in full. -/
theorem tokensAreGrantedWholeAndInOrder : Obligations.TokensAreGrantedWholeAndInOrder := by
  unfold Obligations.TokensAreGrantedWholeAndInOrder
  refine ⟨fun s q b imm n hi hs hb hn hn0 henv hcaddy hclk hpool => ?_, fun s hclk hs => ?_⟩
  · obtain ⟨c, hc⟩ := Option.isSome_iff_exists.1 hcaddy
    have hview : tokens (issueView s q (.tokAcq b imm)) b imm = n := by rw [tokens, issueView_of_settled hb, hn]
    refine ⟨_, opTokAcq_queues hi hs hview hn0 hc (henv c hc) hclk hpool, ?_⟩
    simp
  · obtain ⟨n, hg⟩ := grantTokens_granted (Nat.le_refl s.prog.queue.length) hs
    have hexec : exec .tokenGrant s = .next (State.grantTokens s.prog.queue.length s) := by
      change execTokenGrant s = _
      simp [execTokenGrant, hclk]
    exact ⟨_, n, hexec, hg.queue, hg.held, hg.fits, hg.stuck, hg.each, hg.others, hg.frame⟩

end Sys2Proof.Machine
end

section
/-! Slot-waits and boundaries (R636): what O13 says, as far as it can be proved, and why it cannot be settled. -/

namespace Sys2Proof.Machine

/-- A slot-wait carried out for boundary `k`. -/
theorem opSlotWait_outcome {s : State} {q b imm k : Nat} (h : Issues s q (.slotWait b imm))
    (hk : tokens (issueView s q (.slotWait b imm)) b imm = k) : ∃ t, exec (.opSlotWait q) s = .next t
    ∧ (k ≤ (s.sq q).slots → (t.sq q).wait = none ∧ (t.sq q).pc = after s q ∧ (t.sq q).late = (s.sq q).late + 1)
    ∧ ((s.sq q).slots < k →
        (t.sq q).wait = some (.slot k) ∧ (t.sq q).pc = (s.sq q).pc ∧ (t.sq q).late = (s.sq q).late) := by
  have hwait : (s.sq q).wait = none := by
    have hmay := h.1
    simp only [State.mayIssue, Bool.and_eq_true, Option.isNone_iff_eq_none] at hmay
    exact hmay.1.2
  have hexec : exec (.opSlotWait q) s = execOpSlotWait q s := rfl
  rw [hexec, execOpSlotWait, issue_noTouch h (by simp only [encodeSeq, packFields]; omega)]
  refine ⟨_, rfl, fun hle => ?_, fun hlt => ?_⟩
  · simp [hk, hle, hwait, Sequencer.next, after]
  · simp [hk, Nat.not_le.2 hlt]

/-- Of the boot state and of sequencer `q`, nothing but its outstanding operations changes. -/
def OpsOnly (q : Nat) (s t : State) : Prop := t.boot = s.boot ∧ ∃ ops, t.sq q = { s.sq q with ops := ops }

theorem OpsOnly.refl (q : Nat) (s : State) : OpsOnly q s s := ⟨rfl, _, rfl⟩

theorem OpsOnly.trans {q : Nat} {s t u : State} (h : OpsOnly q s t) (g : OpsOnly q t u) : OpsOnly q s u := by
  obtain ⟨hboot, ops, hops⟩ := h
  obtain ⟨gboot, ops', gops⟩ := g
  exact ⟨gboot.trans hboot, ops', by rw [gops, hops]⟩

theorem OpsOnly.of_kept {q : Nat} {s t : State} (hboot : t.boot = s.boot) (hprog : t.prog = s.prog) : OpsOnly q s t :=
  ⟨hboot, (s.sq q).ops, by rw [State.sq, hprog]; rfl⟩

theorem setWork_opsOnly (s : State) (q id : Nat) (w : OpWork) (d : Option OpDone) : OpsOnly q s (s.setWork q id w d) :=
  ⟨rfl, _, s.sq_setSq_same _ q⟩

theorem sendGroups_opsOnly (s : State) (q c : Nat) (gs : List Group) : OpsOnly q s (s.sendGroups c gs) :=
  have hsend := s.sendGroups_only c gs
  .of_kept (hsend.2 .boot (by simp)) (hsend.2 .prog (by simp))

/-- The next block of a paced send goes out: only its operation moves on. -/
theorem paceOne_opsOnly (s : State) (q : Nat) (o : SeqOp) : OpsOnly q s (s.paceOne q o) := by
  unfold State.paceOne
  split
  · split
    · exact .refl q s
    · exact (setWork_opsOnly s q o.id _ none).trans (.trans (.of_kept rfl rfl) (sendGroups_opsOnly _ q _ _))
  · exact .refl q s

theorem paceAll_opsOnly (s : State) (q : Nat) : OpsOnly q s (s.paceAll q) := by
  unfold State.paceAll
  generalize (s.sq q).ops = ops
  induction ops generalizing s with
  | nil => exact .refl q s
  | cons o ops ih => exact (paceOne_opsOnly s q o).trans (ih _)

/-- A boundary as it has come, its slot counted and its paced blocks sent, before any wait for it ends (R635, R692). -/
def boundaryCome (s : State) (q : Nat) : State :=
  (s.setSq q { s.sq q with slots := (s.sq q).slots + 1, slotLen := (s.sq q).nextLen }).paceAll q

theorem boundaryCome_boot (s : State) (q : Nat) : (boundaryCome s q).boot = s.boot := (paceAll_opsOnly _ q).1

theorem boundaryCome_sq (s : State) (q : Nat) : ∃ ops, (boundaryCome s q).sq q
    = { s.sq q with slots := (s.sq q).slots + 1, slotLen := (s.sq q).nextLen, ops := ops } := by
  obtain ⟨-, ops, hops⟩ := paceAll_opsOnly
    (s.setSq q { s.sq q with slots := (s.sq q).slots + 1, slotLen := (s.sq q).nextLen }) q
  exact ⟨ops, by rw [boundaryCome, hops, State.sq_setSq_same]⟩

/-- A slot-wait that its boundary finds completes, another goes on waiting. -/
theorem slotBoundary_eq_of_slotWait {s u : State} {q k : Nat} (hu : boundaryCome s q = u)
    (hwait : (u.sq q).wait = some (.slot k)) (hstop : (u.sq q).stopping = false) (hdev : u.boot.device ≠ .lost) :
    s.slotBoundary q
      = if k ≤ (u.sq q).slots then u.setSq q { (u.sq q).next with wait := none } else u := by
  unfold boundaryCome at hu
  simp only [State.slotBoundary, hu, hstop, hdev, hwait, Bool.false_eq_true, if_false]

/-- At a boundary a slot-wait goes on waiting, or it completes without a late slot (R636). -/
theorem slotBoundary_of_slotWait {s : State} {q k : Nat} (hwait : (s.sq q).wait = some (.slot k))
    (hstop : (s.sq q).stopping = false) (hdev : s.boot.device ≠ .lost) :
    ((s.slotBoundary q).sq q).slots = (s.sq q).slots + 1 ∧ ((s.slotBoundary q).sq q).late = (s.sq q).late
    ∧ ((s.sq q).slots + 1 < k →
        ((s.slotBoundary q).sq q).wait = some (.slot k) ∧ ((s.slotBoundary q).sq q).pc = (s.sq q).pc)
    ∧ (k ≤ (s.sq q).slots + 1 → ((s.slotBoundary q).sq q).wait = none ∧ ((s.slotBoundary q).sq q).pc = after s q) := by
  obtain ⟨ops, hsq⟩ := boundaryCome_sq s q
  have heq := slotBoundary_eq_of_slotWait (s := s) (q := q) (k := k) rfl (by rw [hsq]; exact hwait)
    (by rw [hsq]; exact hstop) (by rw [boundaryCome_boot]; exact hdev)
  rw [heq]
  by_cases hk : k ≤ (s.sq q).slots + 1
  · simp [hsq, hk, Nat.not_lt.2 hk, Sequencer.next, after]
  · simp [hsq, hk, hwait]

/-- The outcome that R636 states for a slot-wait at its issue. -/
def SlotWaitIssues (s : State) (q b imm : Nat) : Prop :=
  ∃ t v k, Reads s q v ∧ k = ((v b).toNat + imm) % 2 ^ 64 ∧ exec (.opSlotWait q) s = .next t
    ∧ (k ≤ (s.sq q).slots → (t.sq q).wait = none ∧ (t.sq q).pc = after s q ∧ (t.sq q).late = (s.sq q).late + 1)
    ∧ ((s.sq q).slots < k →
        (t.sq q).wait = some (.slot k) ∧ (t.sq q).pc = (s.sq q).pc ∧ (t.sq q).late = (s.sq q).late)

theorem slotWaitIssues_of_reads {s : State} {q b imm : Nat} (h : Issues s q (.slotWait b imm))
    (hv : Reads s q (issueView s q (.slotWait b imm))) : SlotWaitIssues s q b imm := by
  obtain ⟨t, ht, houtcome⟩ := opSlotWait_outcome h rfl
  exact ⟨t, _, _, hv, rfl, ht, houtcome⟩

/-- O13 at its issue, for a sequencer whose unsettled registers are each listed once. -/
theorem slotWaitIssues_of_sorted {s : State} {q b imm : Nat} (h : Issues s q (.slotWait b imm))
    (hs : Bank.sorted (s.sq q).fresh.cells = true) : SlotWaitIssues s q b imm :=
  slotWaitIssues_of_reads h (reads_issueView hs)

theorem execSlotBoundary_of_slotWait {s : State} {q k : Nat} (hq : q < 64) (hclk : s.islandHalted q = false)
    (hrun : (s.sq q).state = .running) (hwait : (s.sq q).wait = some (.slot k)) (hstop : (s.sq q).stopping = false)
    (hdev : s.boot.device ≠ .lost) : ∃ t, exec (.slotBoundary q) s = .next t
      ∧ (t.sq q).slots = (s.sq q).slots + 1 ∧ (t.sq q).late = (s.sq q).late
      ∧ ((s.sq q).slots + 1 < k → (t.sq q).wait = some (.slot k) ∧ (t.sq q).pc = (s.sq q).pc)
      ∧ (k ≤ (s.sq q).slots + 1 → (t.sq q).wait = none ∧ (t.sq q).pc = after s q) := by
  have hexec : exec (.slotBoundary q) s = .next (s.slotBoundary q) := by
    change execSlotBoundary q s = _
    simp [execSlotBoundary, hclk, hrun, Nat.not_le.2 hq]
  exact ⟨_, hexec, slotBoundary_of_slotWait hwait hstop hdev⟩

/-! Why O13 is not settled: where a state lists an unsettled register twice, the passing of a cycle can drop the first
entry, and the register then reads as the second's old value, which `Reads` does not admit. Which value is read is a free
bit, of which nothing can be proved. -/

/-- A sequencer at a slot-wait on s0 that lists s0 as unsettled twice. -/
def twiceUnsettled : Sequencer :=
  { state := .running, store := ⟨[(0, 0x50)]⟩
    fresh := ⟨[(0, { old := 1, left := 1, index := 0 }), (0, { old := 2, left := 2, index := 0 })]⟩ }

def twiceUnsettledAt (n : Nat) : State := { freeCtr := n, prog := { seqs := ⟨[(0, twiceUnsettled)]⟩ } }

theorem twiceUnsettled_issues (n : Nat) : Issues (twiceUnsettledAt n) 0 (.slotWait 0 0) :=
  have hmay : (twiceUnsettledAt n).mayIssue 0 = true := rfl
  have hdec : decodeSeq 0x50 = some (.slotWait 0 0) := by decide
  ⟨hmay, hdec, .inl rfl⟩

/-- The slot-wait takes the second entry's old value where the free bit says so. -/
theorem twiceUnsettled_view {n : Nat} (h : Config.freeNat n % 2 ≠ 1) :
    issueView (twiceUnsettledAt n) 0 (.slotWait 0 0) 0 = 2 := by
  have hfresh : ((twiceUnsettled.elapse 1).fresh.get? 0) = some { old := 2, left := 1, index := 0 } := by decide
  calc issueView (twiceUnsettledAt n) 0 (.slotWait 0 0) 0
      = (twiceUnsettled.elapse 1).view n 0 := by rw [issueView, started_sq]; rfl
    _ = if Config.freeNat n % 2 = 1 then (twiceUnsettled.elapse 1).reg 0 else 2 :=
        Sequencer.view_of_unsettled n hfresh
    _ = 2 := if_neg h

theorem not_slotWaitIssues_twiceUnsettled {n : Nat} (h : Config.freeNat n % 2 ≠ 1) :
    ¬ SlotWaitIssues (twiceUnsettledAt n) 0 0 0 := by
  rintro ⟨t, v, k, hv, hk, ht, hpassed, hwaits⟩
  obtain ⟨u, hu, -, huwait⟩ := opSlotWait_outcome (k := 2) (twiceUnsettled_issues n)
    (by rw [tokens, twiceUnsettled_view h]; rfl)
  obtain rfl : t = u := Host.Outcome.next.inj (ht.symm.trans hu)
  have htwo : (t.sq 0).wait = some (.slot 2) := (huwait Nat.zero_lt_two).1
  rcases hv 0 with hreg | ⟨f, hf, hold⟩
  · have hzero : v 0 = 0 := hreg
    have hk0 : k = 0 := by rw [hk, hzero]; rfl
    have hnone := (hpassed (Nat.le_trans (Nat.le_of_eq hk0) (Nat.zero_le _))).1
    rw [htwo] at hnone
    cases hnone
  · cases (show some ({ old := 1, left := 1, index := 0 } : Fresh) = some f from hf)
    have hone : k = 1 := by rw [hk, hold]; rfl
    have hslot := (hwaits (hone ▸ Nat.zero_lt_one)).1
    rw [htwo, hone] at hslot
    cases hslot

theorem Sequencer.view_of_odd (h : ∀ n, Config.freeNat n % 2 = 1) (x : Sequencer) (ctr i : Nat) :
    x.view ctr i = x.reg i := by
  cases hf : x.fresh.get? i with
  | none => exact view_of_settled ctr hf
  | some f => exact (view_of_unsettled ctr hf).trans (if_pos (h _))

theorem issueView_of_odd (h : ∀ n, Config.freeNat n % 2 = 1) (s : State) (q : Nat) (i : SInstr) (r : Nat) :
    issueView s q i r = (s.sq q).reg r := by
  rw [issueView, started_sq, Sequencer.view_of_odd h, Sequencer.elapse_reg]

/-- O13 comes to this: that the free values, constants with no body, are all odd. So neither it nor its negation can be
proved. -/
theorem slotWaitNeverEndsEarly_iff : Obligations.SlotWaitNeverEndsEarly ↔ ∀ n, Config.freeNat n % 2 = 1 := by
  unfold Obligations.SlotWaitNeverEndsEarly
  constructor
  · rintro ⟨hissue, -⟩ n
    exact Decidable.byContradiction fun hn =>
      not_slotWaitIssues_twiceUnsettled hn (hissue _ _ _ _ (twiceUnsettled_issues n))
  · intro hodd
    exact ⟨fun s q b imm h => slotWaitIssues_of_reads h fun r => .inl (issueView_of_odd hodd s q _ r),
      fun s q k => execSlotBoundary_of_slotWait⟩

end Sys2Proof.Machine
end

section
/-! SUPPORT. An instruction that issues changes its own sequencer alone, and what it leaves there when the next one
follows at once. -/

namespace Sys2Proof.Machine

section SeqOnly
variable {s t u : State} {q : Nat}

theorem SeqOnly.setSq (s : State) (q : Nat) (x : Sequencer) : SeqOnly q s (s.setSq q x) :=
  ⟨fun _ hp => s.sq_setSq_other x hp, rfl, (s.withProg_only _).mono (by simp)⟩

theorem SeqOnly.trans (h : SeqOnly q s t) (g : SeqOnly q t u) : SeqOnly q s u := by
  obtain ⟨hothers, hprog, hrest⟩ := h
  obtain ⟨gothers, gprog, grest⟩ := g
  refine ⟨fun p hp => (gothers p hp).trans (hothers p hp), ?_, hrest.comp grest⟩
  rw [gprog, hprog]

theorem SeqOnly.withFreeCtr (s : State) (q n : Nat) : SeqOnly q s { s with freeCtr := n } :=
  ⟨fun _ _ => rfl, rfl, Only.of_kept_eq rfl fun x hx => by
    cases x with
    | freeCtr => simp at hx
    | _ => rfl⟩

theorem started_seqOnly (s : State) (q : Nat) (i : SInstr) : SeqOnly q s (started s q i) := .setSq s q _

theorem issued_seqOnly (s : State) (q : Nat) (i : SInstr) (t : State) : SeqOnly q t (issued s q i t) := by
  unfold issued
  dsimp only
  split
  · exact .setSq t q _
  · exact .trans (.setSq t q _) (.withFreeCtr _ q _)

/-- Whatever an instruction does to its own sequencer, issuing it reaches no further. -/
theorem issued_modSq_seqOnly (s : State) (q : Nat) (i : SInstr) (f : Sequencer → Sequencer) :
    SeqOnly q s (issued s q i ((started s q i).modSq q f)) :=
  (started_seqOnly s q i).trans (.trans (.setSq _ q _) (issued_seqOnly s q i _))

theorem issued_modSq_sq (s : State) (q : Nat) (i : SInstr) (f : Sequencer → Sequencer) :
    (issued s q i ((started s q i).modSq q f)).sq q = { f ((s.sq q).elapse i.cycles) with hold := none } := by
  simp [State.modSq]

end SeqOnly

section Following
variable {s : State} {q : Nat} {i : SInstr}

theorem wait_of_issues (h : Issues s q i) : (s.sq q).wait = none := by
  have hmay := h.1
  simp only [State.mayIssue, Bool.and_eq_true, Option.isNone_iff_eq_none] at hmay
  exact hmay.1.2

/-- The instruction has completed at once, and did nothing but let the next one follow. -/
def passed (s : State) (q : Nat) (i : SInstr) : State := issued s q i ((started s q i).seqNext q)

theorem passed_sq (s : State) (q : Nat) (i : SInstr) :
    (passed s q i).sq q = { ((s.sq q).elapse i.cycles).next with hold := none } := issued_modSq_sq ..

theorem passed_pc : ((passed s q i).sq q).pc = after s q := congrArg Sequencer.pc (passed_sq s q i)

theorem passed_wait (h : Issues s q i) : ((passed s q i).sq q).wait = none :=
  (congrArg Sequencer.wait (passed_sq s q i)).trans (wait_of_issues h)

theorem passed_seqOnly (s : State) (q : Nat) (i : SInstr) : SeqOnly q s (passed s q i) := issued_modSq_seqOnly ..

theorem passed_counters (p : Nat) : ((passed s q i).sq p).counters = (s.sq p).counters := by
  by_cases hp : p = q
  · subst hp
    rw [passed_sq]
    rfl
  · exact congrArg Sequencer.counters ((passed_seqOnly s q i).1 p hp)

end Following

end Sys2Proof.Machine
end

section
/-! PROOF of O11. A signal of zero lets the next instruction follow, and no counter changes. -/

namespace Sys2Proof.Machine

/-- The sequencer or cluster that a SIG.POST names is one of its binding's. -/
abbrev PostTarget (s : State) (q index : Nat) (toCluster : Bool) : Prop :=
  (if toCluster then (s.bindingOf q).clusters[index]?.isSome else (s.bindingOf q).seqs[index]?.isSome) = true

@[simp] theorem bindingOf_started (s : State) (q : Nat) (i : SInstr) : (started s q i).bindingOf q = s.bindingOf q := by
  simp [State.bindingOf]

/-- A SIG.POST of zero does nothing, as long as its target exists (R697). -/
theorem opSigPost_zero {s : State} {q b index counter : Nat} {toCluster : Bool}
    (h : Issues s q (.sigPost b index toCluster counter)) (hzero : (s.sq q).reg b = 0)
    (hfresh : (s.sq q).fresh.get? b = none) (htarget : PostTarget s q index toCluster) :
    exec (.opSigPost q) s = .next (passed s q (.sigPost b index toCluster counter)) := by
  have hexec : exec (.opSigPost q) s = execOpSigPost q s := rfl
  have hview : issueView s q (.sigPost b index toCluster counter) b = 0 := (issueView_of_settled hfresh).trans hzero
  rw [hexec, execOpSigPost, issue_noTouch h (by simp only [encodeSeq, packFields]; omega)]
  cases toCluster with
  | true =>
    obtain ⟨c, hc⟩ := Option.isSome_iff_exists.1 htarget
    simp [hview, hc, passed]
  | false =>
    obtain ⟨d, hd⟩ := Option.isSome_iff_exists.1 htarget
    simp [hview, hd, passed]

/-- A SIG.WAIT for zero does nothing (R697). -/
theorem opSigWait_zero {s : State} {q j : Nat} (h : Issues s q (.sigWait j 0)) :
    exec (.opSigWait q) s = .next (passed s q (.sigWait j 0)) := by
  have hexec : exec (.opSigWait q) s = execOpSigWait q s := rfl
  rw [hexec, execOpSigWait, issue_noTouch h (by simp only [encodeSeq, packFields]; omega)]
  rfl

/-- Settles O11: both instructions only let the next one follow. -/
theorem zeroSignalsChangeNoCounter : Obligations.ZeroSignalsChangeNoCounter := by
  unfold Obligations.ZeroSignalsChangeNoCounter
  refine ⟨fun s q b index counter toCluster h hzero hfresh htarget => ?_, fun s q j h => ?_⟩
  · obtain ⟨-, hprog, hrest⟩ := passed_seqOnly s q (.sigPost b index toCluster counter)
    have hposts := congrArg Programs.posts hprog
    have hout := congrArg Prod.fst (hrest.2 .out (by simp))
    exact ⟨_, opSigPost_zero h hzero hfresh htarget, passed_pc, passed_wait h, hposts, hrest.2 .d2d (by simp), hout,
      fun _ => passed_counters _⟩
  · exact ⟨_, opSigWait_zero h, passed_pc, passed_wait h, fun _ => passed_counters _⟩

end Sys2Proof.Machine
end

section
/-! PROOF of O12. What a FENCE waits for, and when it completes. -/

namespace Sys2Proof.Machine

/-- The outstanding operations of the classes that a FENCE's mask names, by id (R693). -/
def fenced (x : Sequencer) (mask : Nat) : List Nat := (x.ops.filter fun o => bitOf mask o.cls).map (·.id)

theorem mem_fenced {x : Sequencer} {mask i : Nat} :
    i ∈ fenced x mask ↔ ∃ o ∈ x.ops, o.id = i ∧ bitOf mask o.cls = true := by
  simp [fenced, and_comm, and_left_comm]

theorem fenced_eq_nil {x : Sequencer} {mask : Nat} :
    fenced x mask = [] ↔ ∀ o ∈ x.ops, bitOf mask o.cls = false := by
  simp [fenced]

theorem bitOf_zero (i : Nat) : bitOf 0 i = false := by simp [bitOf]

section Fence
variable {s : State} {q mask : Nat}

theorem opFence_eq (h : Issues s q (.fence mask)) :
    exec (.opFence q) s = .next (if fenced (s.sq q) mask = [] then passed s q (.fence mask)
      else issued s q (.fence mask) ((started s q (.fence mask)).modSq q fun x =>
        { x with wait := some (.fence (fenced (s.sq q) mask)) })) := by
  have hexec : exec (.opFence q) s = execOpFence q s := rfl
  have hops : ((started s q (.fence mask)).sq q).ops = (s.sq q).ops := by rw [started_sq]; rfl
  rw [hexec, execOpFence, issue_noTouch h (by simp only [encodeSeq, packFields]; omega)]
  by_cases hnone : fenced (s.sq q) mask = []
  · rw [if_pos hnone, passed]
    rw [fenced] at hnone
    simp only [hops, hnone, List.isEmpty_nil, if_true, Option.map_some, Option.getD_some]
  · rw [if_neg hnone]
    rw [fenced] at hnone ⊢
    simp only [hops, List.isEmpty_iff, hnone, if_false, Option.map_some, Option.getD_some]

/-- A FENCE in progress completes as soon as none of its operations is outstanding (R693). -/
theorem wakeFence_eq {ids : List Nat} (hwait : (s.sq q).wait = some (.fence ids)) :
    s.wakeFence q
      = if ∃ o ∈ (s.sq q).ops, o.id ∈ ids then s else s.setSq q { (s.sq q).next with wait := none } := by
  simp [State.wakeFence, hwait]

end Fence

/-- Settles O12: the ids a FENCE takes at its issue are those of `fenced`, and it completes with the last of them. -/
theorem fenceWaitsForEarlierOperations : Obligations.FenceWaitsForEarlierOperations := by
  unfold Obligations.FenceWaitsForEarlierOperations
  refine ⟨fun s q mask h => ⟨_, opFence_eq h, ?_⟩, fun s q ids hclk hwait => ?_⟩
  · have hnone : (∀ o ∈ (s.sq q).ops, bitOf mask o.cls = false) → fenced (s.sq q) mask = [] := fenced_eq_nil.2
    refine ⟨fun hmask => ?_, fun hops => ?_, fun ⟨o, ho, hcls⟩ => ?_⟩
    · rw [if_pos (hnone fun o _ => hmask ▸ bitOf_zero o.cls)]
      exact ⟨passed_wait h, passed_pc⟩
    · rw [if_pos (hnone hops)]
      exact ⟨passed_wait h, passed_pc⟩
    · have hsome : fenced (s.sq q) mask ≠ [] := List.ne_nil_of_mem (mem_fenced.2 ⟨o, ho, rfl, hcls⟩)
      rw [if_neg hsome, issued_modSq_sq]
      exact ⟨rfl, _, rfl, fun i => mem_fenced⟩
  · have hexec : exec (.fenceComplete q) s = .next (s.wakeFence q) := by
      change execFenceComplete q s = _
      simp [execFenceComplete, hclk]
    refine ⟨_, hexec, fun hops => ?_, fun hops => ?_⟩
    · rw [wakeFence_eq hwait, if_pos hops]
    · rw [wakeFence_eq hwait, if_neg fun ⟨o, ho, hid⟩ => hops o ho hid, State.sq_setSq_same]
      exact ⟨rfl, rfl⟩

end Sys2Proof.Machine
end

section
/-! The ALU functions (R672): what O9 says, as far as it can be proved, and why it cannot be settled. -/

namespace Sys2Proof.Machine

/-! ### Table 15-3 as integer arithmetic -/

section Functions
variable (a b : BitVec 64)

theorem toNat_aluFn_sub : ((aluFn 1 a b).toNat : Int) = ((a.toNat : Int) - b.toNat) % 2 ^ 64 := by
  have hsub : (aluFn 1 a b).toNat = (2 ^ 64 - b.toNat + a.toNat) % 2 ^ 64 := BitVec.toNat_sub a b
  have hb := b.isLt
  omega

theorem getLsbD_aluFn_xor (i : Nat) : (aluFn 4 a b).getLsbD i = (a.getLsbD i != b.getLsbD i) :=
  BitVec.getLsbD_xor

theorem toNat_aluFn_shiftLeft : (aluFn 5 a b).toNat = a.toNat * 2 ^ (b.toNat % 64) % 2 ^ 64 := by
  simp only [aluFn, BitVec.toNat_shiftLeft, Nat.shiftLeft_eq]

theorem toNat_aluFn_shiftRight : (aluFn 6 a b).toNat = a.toNat / 2 ^ (b.toNat % 64) := by
  simp only [aluFn, BitVec.toNat_ushiftRight, Nat.shiftRight_eq_div_pow]

/-- The arithmetic right shift rounds down. -/
theorem toInt_aluFn_shiftRight : (aluFn 7 a b).toInt = a.toInt / 2 ^ (b.toNat % 64) := by
  simp only [aluFn, BitVec.toInt_sshiftRight, Int.shiftRight_eq_div_pow, Int.natCast_pow, Int.cast_ofNat_Int]

theorem toNat_aluFn_slt : (aluFn 8 a b).toNat = if a.toInt < b.toInt then 1 else 0 := by
  by_cases h : a.toInt < b.toInt <;> simp [aluFn, BitVec.slt, h]

theorem toNat_aluFn_ult : (aluFn 9 a b).toNat = if a.toNat < b.toNat then 1 else 0 := by
  by_cases h : a.toNat < b.toNat <;> simp [aluFn, BitVec.ult, h]

/-- The upper half of a product fits a register. -/
theorem toNat_aluFn_mulHigh : (aluFn 11 a b).toNat = a.toNat * b.toNat / 2 ^ 64 :=
  Nat.mod_eq_of_lt (Nat.div_lt_of_lt_mul (Nat.mul_lt_mul'' a.isLt b.isLt))

theorem toInt_aluFn_min : (aluFn 12 a b).toInt = min a.toInt b.toInt := by
  by_cases h : a.toInt < b.toInt
  · simp only [aluFn, BitVec.slt, h, decide_true, if_true]
    omega
  · simp only [aluFn, BitVec.slt, h, decide_false, Bool.false_eq_true, if_false]
    omega

theorem toInt_aluFn_max : (aluFn 13 a b).toInt = max a.toInt b.toInt := by
  by_cases h : a.toInt < b.toInt
  · simp only [aluFn, BitVec.slt, h, decide_true, if_true]
    omega
  · simp only [aluFn, BitVec.slt, h, decide_false, Bool.false_eq_true, if_false]
    omega

theorem toNat_aluFn_min : (aluFn 14 a b).toNat = min a.toNat b.toNat := by
  by_cases h : a.toNat < b.toNat
  · simp only [aluFn, BitVec.ult, h, decide_true, if_true]
    omega
  · simp only [aluFn, BitVec.ult, h, decide_false, Bool.false_eq_true, if_false]
    omega

theorem toNat_aluFn_max : (aluFn 15 a b).toNat = max a.toNat b.toNat := by
  by_cases h : a.toNat < b.toNat
  · simp only [aluFn, BitVec.ult, h, decide_true, if_true]
    omega
  · simp only [aluFn, BitVec.ult, h, decide_false, Bool.false_eq_true, if_false]
    omega

end Functions

/-! ### An ALU instruction changes its register and the pc only -/

namespace Sequencer

theorem reg_result (x : Sequencer) (a : Nat) (v : BitVec 64) (lat j : Nat) :
    (x.result a v lat).reg j = if j = a ∧ a ≠ 0 then v else x.reg j := by
  by_cases ha : a = 0
  · simp [ha]
  · have hreg : (x.result a v lat).reg j = (x.setReg a v).reg j := by
      unfold result
      dsimp only
      split <;> rfl
    rw [hreg, setReg, if_neg ha]
    by_cases hj : j = a
    · subst hj
      simp [reg, ha]
    · simp [reg, hj]

theorem result_pc (x : Sequencer) (a : Nat) (v : BitVec 64) (lat : Nat) : (x.result a v lat).pc = x.pc := by
  unfold result setReg
  dsimp only
  split <;> split <;> rfl

/-- Registers, pc and what is not yet settled aside, a result changes nothing. -/
theorem settled_result (x : Sequencer) (a : Nat) (v : BitVec 64) (lat : Nat) :
    settled { x.result a v lat with regs := {}, pc := 0 } = settled { x with regs := {}, pc := 0 } := by
  unfold result setReg
  dsimp only
  split <;> split <;> rfl

end Sequencer

/-- An instruction that ends with a result sets its register and lets the next one follow. -/
theorem issued_seqResult_setsReg (s : State) (q : Nat) (i : SInstr) (a : Nat) (v : BitVec 64) (lat : Nat) :
    SetsReg q a v s (issued s q i ((started s q i).seqResult q a v lat)) := by
  have hsq := issued_modSq_sq s q i fun x => (x.result a v lat).next
  rw [← State.seqResult] at hsq
  refine ⟨?_, fun j => ?_, ?_, issued_modSq_seqOnly ..⟩
  · rw [hsq]
    simp [Sequencer.next, Sequencer.result_pc, after]
  · rw [hsq]
    exact Sequencer.reg_result ..
  · rw [hsq]
    exact Sequencer.settled_result ..

/-- The outcome that R672 states for an ALU instruction. -/
def AluSetsReg (s : State) (q a b c fn : Nat) : Prop :=
  ∃ t v, Reads s q v ∧ exec (.opAlu q) s = .next t ∧ SetsReg q a (aluFn fn (v b) (v c)) s t

section OpAlu
variable {s : State} {q a b c fn : Nat}

theorem opAlu_setsReg (h : Issues s q (.alu a b c fn)) : ∃ t, exec (.opAlu q) s = .next t
    ∧ SetsReg q a (aluFn fn (issueView s q (.alu a b c fn) b) (issueView s q (.alu a b c fn) c)) s t := by
  have hexec : exec (.opAlu q) s = execOpAlu q s := rfl
  rw [hexec, execOpAlu, issue_noTouch h (by simp only [encodeSeq, packFields]; omega)]
  exact ⟨_, rfl, issued_seqResult_setsReg ..⟩

theorem aluSetsReg_of_reads (h : Issues s q (.alu a b c fn)) (hv : Reads s q (issueView s q (.alu a b c fn))) :
    AluSetsReg s q a b c fn := by
  obtain ⟨t, ht, hsets⟩ := opAlu_setsReg h
  exact ⟨t, _, hv, ht, hsets⟩

/-- O9 for an instruction of a sequencer whose unsettled registers are each listed once. -/
theorem aluSetsReg_of_sorted (h : Issues s q (.alu a b c fn)) (hs : Bank.sorted (s.sq q).fresh.cells = true) :
    AluSetsReg s q a b c fn := aluSetsReg_of_reads h (reads_issueView hs)

end OpAlu

/-! Why O9 is not settled: it meets the obstacle of O13, a register listed as unsettled twice, that reads by a free bit as
a value which `Reads` does not admit. -/

/-- The sequencer of O13's obstacle at an instruction that takes the lesser of s0 and s0 to s1. -/
def minOfTwiceUnsettled (n : Nat) : State :=
  { freeCtr := n, prog := { seqs := ⟨[(0, { twiceUnsettled with store := ⟨[(0, 0x7000110)]⟩ })]⟩ } }

theorem minOfTwiceUnsettled_issues (n : Nat) : Issues (minOfTwiceUnsettled n) 0 (.alu 1 0 0 14) :=
  have hmay : (minOfTwiceUnsettled n).mayIssue 0 = true := rfl
  have hdec : decodeSeq 0x7000110 = some (.alu 1 0 0 14) := by decide
  ⟨hmay, hdec, .inl rfl⟩

/-- Both operands of the instruction are the second entry's old value where the free bit says so. -/
theorem minOfTwiceUnsettled_view {n : Nat} (h : Config.freeNat n % 2 ≠ 1) :
    issueView (minOfTwiceUnsettled n) 0 (.alu 1 0 0 14) 0 = 2 := by
  rw [← twiceUnsettled_view h, issueView, started_sq, issueView, started_sq]
  rfl

theorem not_aluSetsReg_minOfTwiceUnsettled {n : Nat} (h : Config.freeNat n % 2 ≠ 1) :
    ¬ AluSetsReg (minOfTwiceUnsettled n) 0 1 0 0 14 := by
  rintro ⟨t, v, hv, ht, hsets⟩
  obtain ⟨u, hu, husets⟩ := opAlu_setsReg (minOfTwiceUnsettled_issues n)
  obtain rfl : t = u := Host.Outcome.next.inj (ht.symm.trans hu)
  rw [minOfTwiceUnsettled_view h] at husets
  have htwo : aluFn 14 (v 0) (v 0) = 2 := (hsets.2.1 1).symm.trans (husets.2.1 1)
  rcases hv 0 with hreg | ⟨f, hf, hold⟩
  · rw [show v 0 = 0 from hreg] at htwo
    exact absurd htwo (by decide)
  · cases (show some ({ old := 1, left := 1, index := 0 } : Fresh) = some f from hf)
    rw [hold] at htwo
    exact absurd htwo (by decide)

/-- O9 comes to this: that the free values, constants with no body, are all odd. So neither it nor its negation can be
proved; its first half, the table's functions, holds of itself. -/
theorem aluFunctionsFollowTheTable_iff : Obligations.AluFunctionsFollowTheTable ↔ ∀ n, Config.freeNat n % 2 = 1 := by
  unfold Obligations.AluFunctionsFollowTheTable
  constructor
  · rintro ⟨-, hissue⟩ n
    exact Decidable.byContradiction fun hn =>
      not_aluSetsReg_minOfTwiceUnsettled hn (hissue _ _ _ _ _ _ (minOfTwiceUnsettled_issues n))
  · refine fun hodd => ⟨fun a b => ?_, fun s q a b c fn h =>
      aluSetsReg_of_reads h fun r => .inl (issueView_of_odd hodd s q _ r)⟩
    exact ⟨BitVec.toNat_add a b, toNat_aluFn_sub a b, fun _ => BitVec.getLsbD_and, fun _ => BitVec.getLsbD_or,
      getLsbD_aluFn_xor a b, toNat_aluFn_shiftLeft a b, toNat_aluFn_shiftRight a b, toInt_aluFn_shiftRight a b,
      toNat_aluFn_slt a b, toNat_aluFn_ult a b, BitVec.toNat_mul a b, toNat_aluFn_mulHigh a b, toInt_aluFn_min a b,
      toInt_aluFn_max a b, toNat_aluFn_min a b, toNat_aluFn_max a b⟩

end Sys2Proof.Machine
end
